-- ==== Sys2Proof/Word.lean ====
section
/-! DEFINITION. The word types of the Knarum (00_scope.md: a word is 32 bits, R4, R5) and the sparse table. -/

namespace Sys2Proof

/-- A byte. -/
abbrev Byte := BitVec 8
/-- A half word: 16 bits. -/
abbrev Half := BitVec 16
/-- A word: 32 bits (00_scope.md). -/
abbrev Word := BitVec 32
/-- A double word: 64 bits. -/
abbrev DWord := BitVec 64

/-- A sparse table by key: pairs with strictly rising keys, no entry equal to the value an unlisted key
reads as.  Machine/Ops.lean holds its operations, Laws/Table.lean its laws. -/
abbrev Table (α : Type) := List (Nat × α)

end Sys2Proof
end

