-- ==== Sys2Proof/Operand.lean ====
section
/-! DEFINITION. The data that commands carry: packets, descriptors, link messages, images and packages.
The table gives its rows no operands; these are the facts the spec says each step receives from outside. -/

namespace Sys2Proof.Machine

/-! ## Command packets (15_command_protocol.md) -/

/-- A command packet that came whole: the eight header words and the payload words (R532, R674). -/
structure Packet where
  header : List Word
  payload : List Word
  deriving DecidableEq, Repr

/-- A submission entry as the DMA read delivers it (R511): its 16 words and the payload buffer's bytes. -/
structure SqEntry where
  words : List Word
  payload : List Word
  deriving DecidableEq, Repr

/-- What a register write carries: its value, and the submission entries that DMA reads when the write rings SQ_TAIL (R6, R511). -/
structure BarWrite where
  value : DWord
  entries : List SqEntry
  deriving DecidableEq, Repr

/-- An instruction of a control core, and the scratchpad errors that its access meets and the SECDED corrects: (bank, row) (R42, R85). -/
structure CcStep where
  core : Fin 24
  corrected : List (Nat × Nat)
  deriving DecidableEq, Repr

/-- A commit of a queue's oldest started command, and the scratchpad errors that its accesses met and the SECDED corrected: (bank, row)
(R324, R85). -/
structure QueueCommit where
  queue : Fin 4
  corrected : List (Nat × Nat)
  deriving DecidableEq, Repr

/-- Which way a command reached the lockkeeper: the oldest accepted packet of a PCIe function (R511), or a
KIND 0x01 message on a towpath endpoint (R673, R674; 0 is I3C, 1 is PCIe VDM). -/
inductive Via where
  | ring (fn : Fin 13)
  | tow (ep : Fin 2) (pkt : Packet)
  deriving DecidableEq, Repr

/-! ## Planes and descriptors (02_core_and_scratchpad.md) -/

/-- A plane descriptor (R53). -/
structure Plane where
  consume : Bool := false
  tagmode : Nat := 0
  pound : Nat := 0
  offset : Nat := 0
  gen : Nat := 0
  fmt : Nat := 0
  skew : Nat := 0
  widthM1 : Nat := 0
  rowsM1 : Nat := 0
  pitch : Nat := 0
  tensor : Nat := 0
  bidx : Nat := 0
  deriving DecidableEq, Repr, Inhabited

/-- The lock signal that a command or a transfer carries: core, lock, kind (1 FILL, 2 DRAIN), amount. -/
structure Signal where
  core : Nat
  lock : Nat
  kind : Nat
  amount : Nat
  deriving DecidableEq, Repr, Inhabited

/-- A barge tag (R64 to R69, table "Barge tag"); `v = false` is an invalid tag. -/
structure Tag where
  crc : Word := 0
  tensor : Word := 0
  block : Word := 0
  v : Bool := false
  slen : Nat := 0
  fmt : Nat := 0
  gen : Nat := 0
  deriving DecidableEq, Repr, Inhabited

/-! ## Streams (14_streams_and_host.md), as the stream table and the mirror carry them (R514) -/

/-- `SLOT_STATUS.STATE`. -/
inductive StreamState where
  | opening | live | paused | closing
  deriving DecidableEq, Repr, Inhabited

/-- The register code of a stream state. -/
def StreamState.code : StreamState → Nat
  | .opening => 0 | .live => 1 | .paused => 2 | .closing => 3

/-- Where a stream's intake comes from: R516, and R727 for a stream of a link-fed stage. -/
inductive Source where
  | host | wharf | link
  deriving DecidableEq, Repr, Inhabited

/-- A wharf binding (R482). -/
structure Binding where
  wharf : Nat
  rxFirst : Nat
  rxCount : Nat
  txFirst : Nat
  txCount : Nat
  deriving DecidableEq, Repr, Inhabited

/-- A chunk whose doorbell has arrived (R519, R521). -/
structure Chunk where
  seq : Nat
  arrived : Nat
  inBerth : Bool
  endMark : Bool
  valid : Nat
  tag : DWord
  bad : Nat
  deriving DecidableEq, Repr, Inhabited

/-- What admission fixes for a stream (R516 to R518). -/
structure Admission where
  handle : Word
  fn : Nat
  job : Nat
  cohort : Nat
  row : Nat
  source : Source
  startStep : Nat
  intakeBase : DWord
  intakeLog2 : Nat
  resultBase : DWord
  resultLog2 : Nat
  vector : Nat
  gapLimit : Nat
  deriving DecidableEq, Repr, Inhabited

/-- The chunk that a stream steps now: its sequence, T0, tag and marks, for its result record (R524). -/
structure Stepping where
  seq : Nat
  t0 : Nat
  tag : DWord
  gap : Bool
  final : Bool
  replay : Bool
  rerun : Bool
  deriving DecidableEq, Repr, Inhabited

/-- A stream (14 "Stream handles" to "Results"). `planned` is the state that the accepted commands will leave
(R545). -/
structure Stream where
  adm : Admission
  state : StreamState
  planned : StreamState
  queued : List Chunk := []
  nextSeq : Nat := 0
  lastSeq : Nat := 0xFFFF
  stepping : Option Stepping := none
  gapRun : Nat := 0
  gaps : Half := 0
  refused : Half := 0
  discarded : Half := 0
  resNext : Nat := 0
  resPhase : Bool := true
  resHead : Nat := 0
  binding : Option Binding := none
  endStep : Option Nat := none
  deriving DecidableEq, Repr, Inhabited

/-! ## Link messages (11_elcor_links.md R387, 12 R427 to R459, 16 R577, R583) -/

/-- Where a barge run writes: a plane of a core (data VC), a stream's relay slot (R427; `last` marks the last run of
a cohort's relay), a stream's state slot, its KV summary's changed slots
(offset and bytes of each) or a job's record slot (mirror VC, R432). -/
inductive RunDest where
  | plane (core : Nat) (p : Plane)
  | relay (index slot : Nat) (last : Bool)
  | state (index job rows : Nat)
  | summary (index : Nat) (places : List (Nat × Nat))
  | record (job : Nat)
  deriving DecidableEq, Repr

/-- A RUN message (R386, R387). A retained send carries the row table words of its rows (R728) as (row, word). -/
structure Run where
  vc : Nat
  xfer : Nat
  srcChip : Nat
  srcCore : Nat
  destChip : Nat
  barges : Nat
  dest : RunDest
  retain : Bool
  cohort : Nat
  chunk : Nat
  t0 : Nat
  epoch : Nat := 0
  marks : List (Nat × Nat) := []
  deriving DecidableEq, Repr

/-- What one stream's mirror carries besides bytes (R432, R433, R514): its index, its stream table entry and its
state's length in 4 KiB units. -/
structure MirrorLine where
  index : Nat
  stream : Stream
  state4k : Nat
  deriving DecidableEq, Repr

/-- A link message as it is sent or received. -/
inductive LinkMsg where
  | run (r : Run)
  | barge (vc xfer : Nat) (bytes : List Byte) (tag : Tag)
  | commit (vc xfer parts : Nat) (sig : Option Signal)
  | mirrorCommit (epoch cohort chunk : Nat) (lines : List MirrorLine)
  | signal (vc dest : Nat) (sig : Signal)
  | credit (data mirror sync mgmt : Nat)
  | nack (seq : Nat)
  | resend (first : Nat)
  | timeMark (t1 t2 t3 : Nat)
  | chunkAck (dest src cohort chunk : Nat)
  | retarget (dest failed survivor : Nat)
  | xferFail (dest xfer cause : Nat)
  | relayAck (epoch cohort chunk : Nat)
  | mirrorAck (epoch cohort chunk : Nat)
  | standDown (epoch cause : Nat)
  | retract (dest cohort chunk src reason depth : Nat)
  | checkToken (dest cohort chunk src rate checked : Nat)
  | heartbeat (state epoch sender seq time : Nat)
  | ping (route epoch sender seq target time : Nat)
  | echo (route state epoch sender seq target time : Nat)
  | censusArm (t id radius : Nat)
  | digest (segment : Nat) (digest : List Byte) (time : Nat)
  | hello (chip port digest : Nat)
  deriving DecidableEq, Repr

/-! ## Schedule images, models, packages

The spec fixes no file format for what Thimos compiles; it says which facts an image, a model, a route image,
a firmware image and a pattern package state.  These records hold those facts. -/

/-- A cohort of a schedule: offset per plane (R734), rows, windows from T0 (R31, R446), budgets (R483, R517), what one chunk task issues:
its eligible blocks on either core (R568) and its retained sends (DESIGN CHOICE, log 150). -/
structure CohortSpec where
  offset0 : Nat
  offset1 : Nat
  row0 : Nat
  rows : Nat
  commitEnd : Nat
  recovery : Nat
  hostBudget : Nat
  wharfBudget : Nat
  blocks : List Nat := []
  sends : Nat := 0
  deriving DecidableEq, Repr, Inhabited

/-- A pound that an image places (R59, R60). -/
structure PoundSpec where
  index : Nat
  base : Nat
  bound : Nat
  hash : Nat
  remoteR : Bool
  remoteW : Bool
  readShare : Bool
  deriving DecidableEq, Repr, Inhabited

/-- A lock that an image uses (R278). -/
structure LockSpec where
  index : Nat
  depth : Nat
  rest : Nat
  cohort : Nat
  remote : Bool
  deriving DecidableEq, Repr, Inhabited

/-- A remote-write credit entry that an image asks for (R81). -/
structure CreditSpec where
  destCore : Nat
  destPound : Nat
  count : Nat
  deriving DecidableEq, Repr, Inhabited

/-- The context map of one core (R331): banks, tiles, weight sets with their planes, the save area. -/
structure ContextMap where
  banks : List Nat
  tiles : List Nat
  sets : List (Nat × Plane)
  savePound : Nat
  saveOffset : Nat
  deriving DecidableEq, Repr, Inhabited

/-- What an image uses on one core of its partition. -/
structure CoreSpec where
  pounds : List PoundSpec
  locks : List LockSpec
  credits : List CreditSpec
  flights : Nat
  cacheBytes : Nat
  context : ContextMap
  deriving DecidableEq, Repr, Inhabited

/-- A narrow activation tensor (R148 to R157): its tables of model scales, its records' places, and the places of the
separate records that the solo schedule keeps for the twin's streams (R166). -/
structure TensorSpec where
  tensor : Nat
  fmt : Nat
  bashaba : Bool
  weight : Bool
  tallies : Bool
  learned : List Word
  calibrated : List Word
  core : Nat
  pound : Nat
  srec0 : Nat
  srec1 : Nat
  steerRec : Nat
  windowTally : Nat
  staging : List Nat
  twinRec : Nat := 0
  twinSrec0 : Nat := 0
  twinSrec1 : Nat := 0
  twinTally : Nat := 0
  deriving DecidableEq, Repr, Inhabited

/-- A KV tensor (R241) with its pool (R264) and the place of its attention records (R246). -/
structure KvSpec where
  fmt : Nat
  dh : Nat
  layers : Nat
  heads : Nat
  maxSpans : Nat
  derived : Bool
  appendMax : Nat
  rb : Nat
  summaryLayer : Nat
  poolBarge : Nat
  extents : Nat
  core : Nat
  pound : Nat
  recOffset : Nat
  poolRec : Nat := 0
  tensor : Nat := 0
  deriving DecidableEq, Repr, Inhabited

/-- Shape of the streams of an image (14 Admission). -/
structure StreamShape where
  periodMs : Nat
  n : Nat
  steps : Nat
  cIn : Nat
  b : Nat
  resultBytes : Nat
  txLag : Nat
  linkFed : Bool
  deriving DecidableEq, Repr, Inhabited

/-- Sizes that R431 and R444 bound. -/
structure MirrorSpec where
  stateBytes : Nat
  summaryBytes : Nat
  kvSummaryBytes : Nat
  jobRecordBytes : Nat
  restoreNs : Nat
  deriving DecidableEq, Repr, Inhabited

/-- Where a row's committed state and intake berths lie, and the row table (R228, R231). -/
structure RowPlaces where
  core : Nat
  pound : Nat
  rowTable : Nat
  state : Nat
  stateStride : Nat
  intake : Nat
  intakeStride : Nat
  deriving DecidableEq, Repr, Inhabited

/-- A placement: its number, the resident set it was built for (model, image pairs), the programs of its two cores for the paired and for
the solo schedule (R26, R319). -/
structure Placement where
  id : Nat
  resident : List (Nat × Nat)
  program0 : List Byte
  program1 : List Byte
  resume : List (Nat × Nat × Nat)
  rerun : List (Nat × Nat)
  solo0 : List Byte := []
  solo1 : List Byte := []
  deriving DecidableEq, Repr, Inhabited

/-- A schedule image: what the spec says an image states. `contexts` places the GP context records that belong to committed state (06):
core, pound, offset of the record of the chip's own cohorts and of its twin's. `schedBarge` is the barge of the partition's HBM area at
which its two schedules lie (R26), `stageNs` Δ_s of a link-fed stage (R30). -/
structure Image where
  index : Nat
  shape : StreamShape
  cohorts : List CohortSpec
  soloCohorts : List CohortSpec
  rowsPaired : Nat
  rowsSolo : Nat
  boundUs : Nat
  bulk : Bool
  weirMin : List Nat
  elcorMin : List (Nat × Nat)
  mirror : MirrorSpec
  places : RowPlaces
  cores : List CoreSpec
  tensors : List TensorSpec
  kv : List KvSpec
  rateMax : Nat
  flags : List Bool
  checkGroup : List Nat
  downstream : List Nat
  upstreamChips : List Nat
  placements : List Placement
  contexts : List (Nat × Nat × Nat × Nat) := []
  schedBarge : Nat := 0
  stageNs : Nat := 0
  deriving DecidableEq, Repr, Inhabited

/-- The named flags of an image, by position in `Image.flags`. -/
def Image.guardBuild (i : Image) : Bool := i.flags.getD 0 false
/-- Built with the allowance of R335. -/
def Image.preemptAllowance (i : Image) : Bool := i.flags.getD 1 false
/-- The job spans more than one chip (R402). -/
def Image.spansChips (i : Image) : Bool := i.flags.getD 2 false
/-- The context map obeys R331. -/
def Image.contextOk (i : Image) : Bool := i.flags.getD 3 false


/-- A stored barge of a model package: its tag and its SLEN x 64 stored bytes (R612). -/
structure StoredBarge where
  tag : Tag
  bytes : List Byte
  deriving DecidableEq, Repr, Inhabited

/-- A model package (R613): manifest, shard, the weight tensors of the shard in ascending barge order, each by its first barge and its
barges (R374), code tables (R363), a reference digest for each digest segment, images; `signed` says whether the signature verifies,
`wellFormed` whether the package can be parsed (R639 0x0008). -/
structure ModelPkg where
  id : Nat
  shard : List StoredBarge
  weights : List (Nat × Nat)
  tables : List (List Byte)
  references : List (List Byte)
  images : List Image
  digest : List Byte
  signed : Bool
  wellFormed : Bool
  len4k : Nat
  deriving DecidableEq, Repr, Inhabited

/-- A firmware image's header facts (R632, R633). -/
structure FwImage where
  magic : Word
  version : Word
  svn : Nat
  device : Word
  keyOk : Bool
  sigOk : Bool
  deriving DecidableEq, Repr, Inhabited

/-- A pattern package (R606, R607). -/
structure PatternPkg where
  version : Word
  device : Word
  minFw : Word
  signed : Bool
  focus : List (Nat × Nat × Nat × List Nat)
  groupB : Nat := 0
  bist : Nat := 0
  deriving DecidableEq, Repr, Inhabited

/-- A route image (R397, R401, R408, R409, R421, R439, R456): per link the expected neighbour, parents,
routes, transit rates, witness routes (first link), the spare chip and its path. -/
structure RouteImage where
  digest : Nat
  expect : List (Nat × Nat × Nat)
  parents : List Nat
  routes : List (Nat × List Nat)
  transit : List (Nat × Nat)
  witness : List Nat
  spare : Option (Nat × Nat)
  variants : List (Nat × List (Nat × List Nat))
  deriving DecidableEq, Repr, Inhabited

/-- An intake entry's header as the DMA read delivers it (R520), or a completion error. -/
structure IntakeEntry where
  endMark : Bool
  seq : Nat
  valid : Nat
  tag : DWord
  reservedOk : Bool
  dmaOk : Bool
  samples : List Byte
  deriving DecidableEq, Repr, Inhabited

/-- What a phase of bring-up finds (R643 to R657): whether an anchor reads; sites (7 × row + column) that fail a self-test or group B;
scratchpad rows that fail, by (site, bank, row); free spare rows by site × 64 + bank; the stacks' temperatures, whether the ledger's training
pattern matches and whether full training succeeds, by stack; logical flash pages (block × 256 + page) that stay uncorrectable; corrected HBM
beats by (stack, pseudo-channel). -/
structure PhaseReport where
  anchorsOk : Bool := true
  failedSites : List Nat := []
  failedRows : List (Nat × Nat × Nat) := []
  spares : List (Nat × Nat) := []
  hbmTemps : List Int := []
  patternOk : List Bool := []
  trainOk : List Bool := []
  badPages : List Nat := []
  hbmCe : List (Nat × Nat) := []
  deriving DecidableEq, Repr, Inhabited

/-- The kinds of warm-reset cause, coded as `RESET_STATUS.CAUSE`. -/
inductive WarmCause where
  | devReset | hbmUe | spadUe | thermal | watchdog | fwActivate | retire | linkVariant
  deriving DecidableEq, Repr

/-- A COMMIT message (R387, R415, R432): of a transfer with its part count and lock signal, or of a mirror. -/
inductive CommitMsg where
  | transfer (vc xfer parts : Nat) (sig : Option Signal)
  | mirror (epoch cohort chunk : Nat) (lines : List MirrorLine)
  deriving DecidableEq, Repr

/-- What a training step finds (R396, R397): the lanes that trained, for the hello step the
peer's chip, port and route digest and whether the peer's own check passed, for step 5 the delay in ns. -/
structure TrainFinding where
  lanes : Nat
  peerChip : Nat
  peerPort : Nat
  peerDigest : Nat
  peerOk : Bool
  delay : Nat
  deriving DecidableEq, Repr

/-- Which condition of the self-check of R437 failed. -/
inductive SelfCheck where
  | watchdog | clocks | supply | pad
  deriving DecidableEq, Repr

/-- What a dredge read finds (R619 to R622): the block and page, the most corrected bits of a codeword, whether read-retry
was needed, whether it stayed uncorrectable, and whether the pass ends with it. -/
structure DredgeRead where
  block : Nat
  page : Nat
  bits : Nat
  retry : Bool
  uncorrectable : Bool
  last : Bool
  deriving DecidableEq, Repr

/-- The pins whose assertion holds the chip in reset (R641). -/
inductive ResetPin where
  | por | perst
  deriving DecidableEq, Repr

end Sys2Proof.Machine
end

