-- ==== Sys2Proof/Syntax.lean ====
section
/-! DEFINITION. The commands of the block: one constructor per row of spec/opcode_table.json, in the table's
order.  The table gives its rows no bits; the operands are what the spec says the step receives from outside
(a register access, a message, what a sensor reads, the host bytes a command fetches). -/

namespace Sys2Proof

open Sys2Proof.Machine

/-- A command: a host command, an engine or queue step, a message, a pin or time event. -/
inductive Instr where
  /-- POR_N_DEASSERT (R640). -/
  | porNDeassert
  /-- PERST_N_DEASSERT (R640). -/
  | perstNDeassert
  /-- RESET_PIN_ASSERT (R641). -/
  | resetPinAssert (pin : ResetPin)
  /-- BRINGUP_PHASE_END (R643). -/
  | bringupPhaseEnd (r : PhaseReport)
  /-- FW_SVN_RAISE (R636). -/
  | fwSvnRaise
  /-- WATCHDOG_EXPIRY (R662). -/
  | watchdogExpiry
  /-- TEMP_SAMPLE (R684). -/
  | tempSample (readings : List Int) (avgW : Nat)
  /-- THERMAL_TRIP (R663). -/
  | thermalTrip
  /-- RAIL_OUT_OF_RANGE (R712). -/
  | railOutOfRange (rail : Fin 8)
  /-- FUNCTION_LEVEL_RESET (R667). -/
  | functionLevelReset (fn : Fin 13)
  /-- VF_ENABLE (R733). -/
  | vfEnable (numVfs : Nat) (enable : Bool)
  /-- REGISTER_WRITE (R14). -/
  | registerWrite (fn : Fin 13) (bar offset size : Nat) (write : BarWrite)
  /-- RING_ENABLE (R731). -/
  | ringEnable (fn : Fin 13) (completion : Bool) (value : Word)
  /-- SQ_TAIL_WRITE (R511). -/
  | sqTailWrite (fn : Fin 13) (value : Word) (entries : List SqEntry)
  /-- CQ_HEAD_WRITE (R512). -/
  | cqHeadWrite (fn : Fin 13) (value : Word)
  /-- COMPLETION_WRITE (R512). -/
  | completionWrite (fn : Fin 13)
  /-- INTAKE_DB_WRITE (R519). -/
  | intakeDbWrite (fn : Fin 13) (slot : Fin 1024) (value : Word)
  /-- RESULT_DB_WRITE (R526). -/
  | resultDbWrite (fn : Fin 13) (slot : Fin 1024) (value : Word)
  /-- INTAKE_READ (R521). -/
  | intakeRead (slot : Fin 1024) (entry : IntakeEntry)
  /-- RESULT_RECORD_WRITE (R524). -/
  | resultRecordWrite (job : Fin 96) (cohort : Fin 32) (payloads : List (Nat × List Byte))
  /-- BAR4_ACCESS (R508). -/
  | bar4Access (offset : Fin 1073741824) (write : Option (List Byte)) (len : Nat)
  /-- DEV_QUERY (R552). -/
  | devQuery (via : Via)
  /-- DEV_SET_TIME (R552). -/
  | devSetTime (via : Via)
  /-- DEV_RESET_WARM (R558). -/
  | devResetWarm (via : Via)
  /-- DEV_RESET_CORE (R665). -/
  | devResetCore (via : Via)
  /-- DEV_SEAL_READ (R552). -/
  | devSealRead (via : Via)
  /-- DEV_SEAL_BLOW (R637). -/
  | devSealBlow (via : Via) (blown : Fin 16)
  /-- PART_CONFIGURE (R348). -/
  | partConfigure (via : Via)
  /-- PART_SET_WEIR (R346). -/
  | partSetWeir (via : Via)
  /-- JOB_LOAD (R319). -/
  | jobLoad (via : Via)
  /-- JOB_START (R319). -/
  | jobStart (via : Via)
  /-- JOB_KILL (R328). -/
  | jobKill (via : Via)
  /-- JOB_PREEMPT (R330). -/
  | jobPreempt (via : Via)
  /-- JOB_SET_PRIORITY (R342). -/
  | jobSetPriority (via : Via)
  /-- JOB_COUNTS (R320). -/
  | jobCounts (via : Via)
  /-- STREAM_OPEN (R517). -/
  | streamOpen (via : Via)
  /-- STREAM_PAUSE (R528). -/
  | streamPause (via : Via)
  /-- STREAM_RESUME (R231). -/
  | streamResume (via : Via)
  /-- STREAM_CLOSE (R529). -/
  | streamClose (via : Via)
  /-- STREAM_BIND_WHARF (R482). -/
  | streamBindWharf (via : Via)
  /-- STREAM_QUERY (R530). -/
  | streamQuery (via : Via)
  /-- MODEL_INSTALL_LOAD (R612). -/
  | modelInstallLoad (via : Via) (readable : Bool)
  /-- MODEL_INSTALL_STORE (R613). -/
  | modelInstallStore (via : Via) (pkg : ModelPkg)
  /-- MODEL_INSTALL_DELETE (R556). -/
  | modelInstallDelete (via : Via)
  /-- MODEL_DIGEST_SET_INTERVAL (R376). -/
  | modelDigestSetInterval (via : Via)
  /-- MODEL_DIGEST_SWEEP (R376). -/
  | modelDigestSweep (via : Via)
  /-- MODEL_DIGEST_READ (R556). -/
  | modelDigestRead (via : Via)
  /-- SCALE_STEER_SET (R158). -/
  | scaleSteerSet (via : Via)
  /-- WHARF_CONFIG (R475). -/
  | wharfConfig (via : Via)
  /-- WHARF_ARM (R486). -/
  | wharfArm (via : Via)
  /-- WHARF_START (R487). -/
  | wharfStart (via : Via)
  /-- WHARF_STOP (R556). -/
  | wharfStop (via : Via)
  /-- WHARF_REF_SELECT (R500). -/
  | wharfRefSelect (via : Via)
  /-- PAIR_BIND (R424). -/
  | pairBind (via : Via)
  /-- PAIR_MIRROR_START (R467). -/
  | pairMirrorStart (via : Via)
  /-- PAIR_HANDOVER_GIVE (R453). -/
  | pairHandoverGive (via : Via)
  /-- PAIR_HANDOVER_RETURN (R453). -/
  | pairHandoverReturn (via : Via)
  /-- PAIR_STATUS (R468). -/
  | pairStatus (via : Via)
  /-- PAIR_UNBIND (R468). -/
  | pairUnbind (via : Via)
  /-- LINK_TRAIN (R396). -/
  | linkTrain (via : Via) (routes : Option RouteImage)
  /-- LINK_TRAIN_STOP (R557). -/
  | linkTrainStop (via : Via) (routes : Option RouteImage)
  /-- LINK_TRAIN_CLEAR (R557). -/
  | linkTrainClear (via : Via) (routes : Option RouteImage)
  /-- LINK_STATUS (R557). -/
  | linkStatus (via : Via)
  /-- TEST_SCAN_NOW (R600). -/
  | testScanNow (via : Via)
  /-- TEST_SCAN_INTERVAL (R597). -/
  | testScanInterval (via : Via)
  /-- TEST_CHECK_RATE (R566). -/
  | testCheckRate (via : Via)
  /-- TEST_OBSERVE_READ (R557). -/
  | testObserveRead (via : Via)
  /-- TEST_OBSERVE_MARK (R587). -/
  | testObserveMark (via : Via)
  /-- TEST_OBSERVE_CLEAR (R589). -/
  | testObserveClear (via : Via)
  /-- CORE_RETIRE (R591). -/
  | coreRetire (via : Via)
  /-- SIGNATURE_EXPORT (R605). -/
  | signatureExport (via : Via)
  /-- PATTERN_INSTALL (R606). -/
  | patternInstall (via : Via) (pkg : PatternPkg)
  /-- FW_UPDATE (R634). -/
  | fwUpdate (via : Via) (img : FwImage)
  /-- FW_ACTIVATE (R635). -/
  | fwActivate (via : Via)
  /-- LEDGER_READ (R624). -/
  | ledgerRead (via : Via)
  /-- LEDGER_WRITE (R624). -/
  | ledgerWrite (via : Via) (data : List Byte)
  /-- FLASH_HEALTH_SUMMARY (R557). -/
  | flashHealthSummary (via : Via)
  /-- FLASH_HEALTH_RAW_READ (R557). -/
  | flashHealthRawRead (via : Via) (page : List Byte) (readable : Bool)
  /-- TELEMETRY_READ (R677). -/
  | telemetryRead (via : Via)
  /-- CENSUS_ARM (R310). -/
  | censusArm (via : Via)
  /-- CENSUS_CANCEL (R311). -/
  | censusCancel (via : Via)
  /-- CENSUS_READ (R316). -/
  | censusRead (via : Via)
  /-- MCTP_CONTROL_MESSAGE (R671). -/
  | mctpControlMessage (ep : Fin 2) (msg : List Byte)
  /-- MCTP_DATA_TO_KNARUM (R674). -/
  | mctpDataToKnarum (ep : Fin 2) (seq : Word) (offset : Nat) (data : List Byte)
  /-- I3C_ADDRESS_ASSIGN (R672). -/
  | i3cAddressAssign (setdasa : Bool) (address : BitVec 7)
  /-- CC_INSTRUCTION (R42). -/
  | ccInstruction (step : CcStep)
  /-- DESCRIPTOR_ENQUEUE (R44). -/
  | descriptorEnqueue (core : Fin 24) (queue : Fin 4) (words : List Word)
  /-- QUEUE_FULL_RESUME (R45). -/
  | queueFullResume (core : Fin 24)
  /-- SUMMARY_FIFO_POP (R198). -/
  | summaryFifoPop (core : Fin 24) (rd : Fin 32)
  /-- SUMMARY_STALL_RESUME (R199). -/
  | summaryStallResume (core : Fin 24)
  /-- VE_SUM_TIMEOUT (R199). -/
  | veSumTimeout (core : Fin 24)
  /-- SCAN_GATE (R594). -/
  | scanGate (core : Fin 24) (rd : Fin 32)
  /-- SCAN_SEGMENT_END (R599). -/
  | scanSegmentEnd (core : Fin 24) (pass : Bool) (response : Word)
  /-- DM_COPY (R76). -/
  | dmCopy (core : Fin 24)
  /-- DM_FILL (R77). -/
  | dmFill (core : Fin 24)
  /-- DM_SEND_CORE (R82). -/
  | dmSendCore (core : Fin 24)
  /-- DM_FETCH_CORE (R77). -/
  | dmFetchCore (core : Fin 24)
  /-- DM_HBM_READ (R361). -/
  | dmHbmRead (core : Fin 24) (corrected : List Nat)
  /-- DM_HBM_WRITE (R358). -/
  | dmHbmWrite (core : Fin 24)
  /-- DM_LINK_SEND (R414). -/
  | dmLinkSend (core : Fin 24)
  /-- ME_LOADW (R91). -/
  | meLoadw (core : Fin 24)
  /-- ME_MATMUL (R104). -/
  | meMatmul (core : Fin 24)
  /-- ME_DRAIN (R113). -/
  | meDrain (core : Fin 24)
  /-- ME_LOADRS (R110). -/
  | meLoadrs (core : Fin 24)
  /-- ME_ZERO (R124). -/
  | meZero (core : Fin 24)
  /-- ME_PREWARM (R681). -/
  | mePrewarm (core : Fin 24)
  /-- ME_LOADKV (R248). -/
  | meLoadkv (core : Fin 24)
  /-- ME_MATMUL_C (R569). -/
  | meMatmulC (core : Fin 24)
  /-- ME_CHECK (R569). -/
  | meCheck (core : Fin 24)
  /-- VE_FLIGHT (R174). -/
  | veFlight (core : Fin 24)
  /-- VE_SETT (R202). -/
  | veSett (core : Fin 24)
  /-- VE_LOADFT (R204). -/
  | veLoadft (core : Fin 24)
  /-- GP_STEP (R226). -/
  | gpStep (core : Fin 24)
  /-- WAITF (R288). -/
  | waitf (core : Fin 24) (queue : Fin 4)
  /-- WAITD (R288). -/
  | waitd (core : Fin 24) (queue : Fin 4)
  /-- LOCK_SIGNAL (R300). -/
  | lockSignal (core : Fin 24) (queue : Fin 4)
  /-- LOCK_DEPTH (R301). -/
  | lockDepth (core : Fin 24) (queue : Fin 4)
  /-- COMMAND_COMMIT (R324). -/
  | commandCommit (core : Fin 24) (commit : QueueCommit)
  /-- WAIT_COMPLETE (R291). -/
  | waitComplete (core : Fin 24) (queue : Fin 4)
  /-- WAIT_DEADLINE (R295). -/
  | waitDeadline (core : Fin 24) (queue : Fin 4)
  /-- VE_SUM_OVERFLOW (R200). -/
  | veSumOverflow (core : Fin 24)
  /-- CREDIT_TIMEOUT (R296). -/
  | creditTimeout (core : Fin 24)
  /-- ME_CLOCK_GATE (R127). -/
  | meClockGate (core : Fin 24)
  /-- ME_WAKE_END (R127). -/
  | meWakeEnd (core : Fin 24)
  /-- MAINTENANCE_CYCLE (R51). -/
  | maintenanceCycle (core : Fin 24) (corrected : List (Nat × Nat))
  /-- ROW_MAP_OUT (R87). -/
  | rowMapOut (core : Fin 24) (bank : Fin 64) (row : Nat)
  /-- SPAD_UE (R88). -/
  | spadUe (core : Fin 24) (bank : Fin 65) (row : Nat) (job : Option (Fin 96))
  /-- REMOTE_ACCESS_ARRIVE (R63). -/
  | remoteAccessArrive (core : Fin 24)
  /-- REMOTE_COMMIT_FLIT (R83). -/
  | remoteCommitFlit (core : Fin 24)
  /-- CREDIT_RETURN (R82). -/
  | creditReturn (core : Fin 24)
  /-- NOC_SIGNAL_ARRIVE (R282). -/
  | nocSignalArrive (core : Fin 24)
  /-- LOCK_QUARANTINE_CLEAR (R308). -/
  | lockQuarantineClear (core : Fin 24) (lock : Fin 256)
  /-- JOB_END (R319). -/
  | jobEnd (job : Fin 96)
  /-- SWITCH_HOLD_EXPIRY (R330). -/
  | switchHoldExpiry (part : Fin 12)
  /-- SWITCH_PARK (R332). -/
  | switchPark (part : Fin 12)
  /-- SWITCH_COMPLETE (R332). -/
  | switchComplete (part : Fin 12)
  /-- BARGE_GRANT (R344). -/
  | bargeGrant (part : Fin 12) (weir : Fin 4) (link : Fin 32)
  /-- COHORT_BOUNDARY (R40). -/
  | cohortBoundary (job : Fin 96) (cohort : Fin 32)
  /-- COMPUTE_START (R32). -/
  | computeStart (job : Fin 96) (cohort : Fin 32)
  /-- RELAY_ACK_TIMEOUT (R32). -/
  | relayAckTimeout (job : Fin 96) (cohort : Fin 32)
  /-- CHUNK_COMMIT (R37). -/
  | chunkCommit (job : Fin 96) (cohort : Fin 32)
  /-- RUN_MESSAGE (R386). -/
  | runMessage (link : Fin 36) (r : Run)
  /-- BARGE_RECEIVE (R413). -/
  | bargeReceive (link : Fin 36) (vc : Fin 4) (xfer : Nat) (bytes : List Byte) (tag : Tag)
  /-- COMMIT_MESSAGE (R415). -/
  | commitMessage (link : Fin 36) (c : CommitMsg)
  /-- SIGNAL_MESSAGE (R283). -/
  | signalMessage (link : Fin 36) (vc : Fin 4) (dest : Nat) (sig : Signal)
  /-- CREDIT_MESSAGE (R391). -/
  | creditMessage (link : Fin 36) (data mirror sync mgmt : Nat)
  /-- NACK (R393). -/
  | nack (link : Fin 36) (seq : Nat)
  /-- TIME_MARK (R400). -/
  | timeMark (link : Fin 36) (send echo recv : Nat)
  /-- CHUNK_ACK (R418). -/
  | chunkAck (link : Fin 36) (dest src cohort chunk : Nat)
  /-- RETARGET (R419). -/
  | retarget (link : Fin 36) (dest failed survivor : Nat)
  /-- XFER_FAIL (R413). -/
  | xferFail (link : Fin 36) (dest xfer cause : Nat)
  /-- RELAY_ACK (R427). -/
  | relayAck (link : Fin 36) (epoch cohort chunk : Nat)
  /-- MIRROR_ACK (R37). -/
  | mirrorAck (link : Fin 36) (epoch cohort chunk : Nat)
  /-- STAND_DOWN (R583). -/
  | standDown (link : Fin 36) (epoch cause : Nat)
  /-- RETRACT (R460). -/
  | retract (link : Fin 36) (dest cohort chunk src reason depth : Nat)
  /-- CHECK_TOKEN (R578). -/
  | checkToken (link : Fin 36) (dest cohort chunk src rate checked : Nat)
  /-- HEARTBEAT (R438). -/
  | heartbeat (link : Fin 36) (state epoch sender seq time : Nat)
  /-- WITNESS_PING (R439). -/
  | witnessPing (link : Fin 36) (route epoch sender seq target time : Nat)
  /-- WITNESS_ECHO (R440). -/
  | witnessEcho (link : Fin 36) (route state epoch sender seq target time : Nat)
  /-- DIGEST_EXCHANGE (R601). -/
  | digestExchange (link : Fin 36) (segment : Nat) (digest : List Byte) (time : Nat)
  /-- CODEWORD_UNCORRECTABLE (R393). -/
  | codewordUncorrectable (link : Fin 36) (seq : Nat)
  /-- FLIT_RELEASE (R394). -/
  | flitRelease (link : Fin 36) (decodedAt corrected : Nat)
  /-- LINK_CREDIT_RETURN (R391). -/
  | linkCreditReturn (link : Fin 36)
  /-- TIME_MARK_SEND (R400). -/
  | timeMarkSend (link : Fin 36)
  /-- HEARTBEAT_SEND (R436). -/
  | heartbeatSend (padLevel : Bool)
  /-- LINK_TRAINING_STEP (R396). -/
  | linkTrainingStep (link : Fin 36) (f : TrainFinding)
  /-- LINK_TRAIN_TIMEOUT (R398). -/
  | linkTrainTimeout (link : Fin 36)
  /-- LINK_FAILURE (R421). -/
  | linkFailure (link : Fin 36)
  /-- NO_PARENT_TIMEOUT (R404). -/
  | noParentTimeout
  /-- LINK_VARIANT_SWITCH (R421). -/
  | linkVariantSwitch (variant : Nat)
  /-- TIME_IN_EDGE (R399). -/
  | timeInEdge
  /-- TIME_OUT_PULSE (R399). -/
  | timeOutPulse
  /-- TWIN_HB_IN_EDGE (R438). -/
  | twinHbInEdge
  /-- QUIET_WITNESS_PING (R439). -/
  | quietWitnessPing
  /-- WITNESS_TIMEOUT (R439). -/
  | witnessTimeout (route : Fin 2)
  /-- TWIN_DECISION (R442). -/
  | twinDecision (localFault : Bool)
  /-- RESTORE_COMPLETE (R444). -/
  | restoreComplete
  /-- RECOVERY_WINDOW (R446). -/
  | recoveryWindow (job : Fin 96) (cohort : Fin 32)
  /-- SELF_CHECK_FAIL (R437). -/
  | selfCheckFail (c : SelfCheck)
  /-- HANDOVER_TIME (R453). -/
  | handoverTime
  /-- REMIRROR_START (R467). -/
  | remirrorStart
  /-- CHECK_TIMER_EXPIRY (R575). -/
  | checkTimerExpiry (part : Fin 12) (id : Nat)
  /-- WHARF_TRIG_EDGE (R487). -/
  | wharfTrigEdge
  /-- WHARF_START_EDGE (R488). -/
  | wharfStartEdge (reference : Fin 3)
  /-- FRAME_COMPLETE (R493): the data words of the frame by slot, and whether the RX ring was full (R490). -/
  | frameComplete (wharf : Fin 10) (samples : List (List Byte)) (overrun : Bool)
  /-- WHARF_BOUNDARY (R493). -/
  | wharfBoundary (wharf : Fin 10) (job : Fin 96) (cohort : Fin 32)
  /-- TX_FRAME_OPENING (R492). -/
  | txFrameOpening (wharf : Fin 10)
  /-- SLIP_LIMIT_WINDOW (R496). -/
  | slipLimitWindow
  /-- REF_WINDOW (R497). -/
  | refWindow (edges0 edges1 : Nat)
  /-- REF_NO_EDGE (R498). -/
  | refNoEdge (ref : Fin 2)
  /-- BCLK_CONTEND (R506). -/
  | bclkContend (wharf : Fin 10)
  /-- WHARF_OUTPUT_ENABLE (R504). -/
  | wharfOutputEnable (wharf : Fin 10)
  /-- WHARF_ROLE_SWAP (R505). -/
  | wharfRoleSwap (wharf : Fin 10)
  /-- HBM_REFRESH (R352). -/
  | hbmRefresh (stack : Fin 4) (pc : Fin 32)
  /-- HBM_UE (R372). -/
  | hbmUe (addr : Nat) (job : Option (Fin 96))
  /-- FULL_LOAD_INTERVAL (R378). -/
  | fullLoadInterval (minus plus : List Bool)
  /-- DIGEST_SEGMENT_DONE (R375). -/
  | digestSegmentDone (part : Fin 12) (model segment : Nat)
  /-- CHIP_SUSPECT_EXPIRY (R602). -/
  | chipSuspectExpiry
  /-- CENSUS_LATCH (R313). -/
  | censusLatch
  /-- CENSUS_FORWARD (R312). -/
  | censusForward (link : Fin 36) (t id radius : Nat)
  /-- MAINT_RELEASE (R687). -/
  | maintRelease (activity : Nat)
  /-- MAINT_GRANT (R689). -/
  | maintGrant (activity : Nat)
  /-- MAINT_URGENT (R693). -/
  | maintUrgent (activity : Nat)
  /-- MAINT_FORCED (R693). -/
  | maintForced (activity : Nat)
  /-- MAINT_FORCED_REPEAT (R697). -/
  | maintForcedRepeat (activity : Nat)
  /-- MAINT_DONE (R697). -/
  | maintDone (activity : Nat)
  /-- DREDGE_READ (R620). -/
  | dredgeRead (r : DredgeRead)
  /-- DREDGE_INTERVAL_UPDATE (R620). -/
  | dredgeIntervalUpdate
  /-- LEDGER_WRITE_DUE (R625). -/
  | ledgerWriteDue
  /-- NAND_TEMP_READ (R609). -/
  | nandTempRead (t0 t1 : Int)
  /-- FLASH_WEAR_REPORT (R618). -/
  | flashWearReport
  /-- SIGNATURE_FLUSH (R603). -/
  | signatureFlush
  /-- RING_CHECKPOINT (R626). -/
  | ringCheckpoint
  /-- FLASH_OP_FAIL (R617). -/
  | flashOpFail (block : Nat) (erase : Bool)
  /-- COMMAND_TIMEOUT (R559). -/
  | commandTimeout (mailbox : Fin 15) (seq : Word)
  /-- RETRACTED_RECORD_AT_BOUND (R463). -/
  | retractedRecordAtBound (job : Fin 96) (cohort : Fin 32)
  /-- HBM_SELF_REFRESH_EXIT (R680). -/
  | hbmSelfRefreshExit
  /-- CONFIG_REQUEST (R654). -/
  | configRequest (fn : Fin 13) (write : Bool) (offset : Nat) (value : Word)
  /-- TIME_NOW_READ (R509). -/
  | timeNowRead (fn : Fin 13) (high : Bool)
  /-- JTAG_TCK_EDGE (R719). -/
  | jtagTckEdge (tms tdi : Bool)
  /-- JTAG_TAP_RESET (R719). -/
  | jtagTapReset
  /-- I3C_ENEC (R672). -/
  | i3cEnec
  deriving DecidableEq, Repr

end Sys2Proof
end

