-- ==== Sys2Proof/Config.lean ====
section
/-! DEFINITION. What the spec leaves open, as constants without a body, and the choices of this model that the
assumption log names (notes/assumptions). -/

namespace Sys2Proof.Config

/-! ## Free values (uninterpreted) -/

/-- A byte of a memory whose contents are undefined, by epoch and address (R58, R652, R668). -/
opaque freeByte : Nat → Nat → BitVec 8
/-- A 32-bit location whose contents are undefined: accumulators, rescale tables, tiles (R93, R169). -/
opaque freeWord : Nat → Nat → BitVec 32
/-- A byte of a destination, a 32-bit element of an output, that a killed or faulted command leaves undefined (R123, R206, R236,
R324), by draw and place. -/
opaque freeOut : Nat → Nat → BitVec 8
opaque freeLost : Nat → Nat → BitVec 32
/-- A number the spec fixes only within bounds, by draw count. -/
opaque freeNat : Nat → Nat
/-- Whether an undefined valid mark reads as set, by draw count. -/
opaque freeBool : Nat → Bool

/-- The PCI configuration space of a function: what a word reads after a reset and which of its bits the host may write, by
function and word (the PCI Express Base Specification fixes them, R507). -/
opaque configReset : Nat → Nat → BitVec 32
opaque configMask : Nat → Nat → BitVec 32

/-- DESIGN CHOICE: where the MSI-X capability's first word lies in configuration space. -/
def msixCap : Nat := 0xB0

/-! ## Functions whose bits the spec does not state -/

/-- EXP2 outside the special values of R183, FP32 in, FP32 out: a proposal, which stands where it keeps the error bound of R182. So with the others. -/
opaque exp2 : BitVec 32 → BitVec 32
/-- LOG2 of R181. -/
opaque log2 : BitVec 32 → BitVec 32
/-- RCP of R181. -/
opaque rcp : BitVec 32 → BitVec 32
/-- RSQRT of R181. -/
opaque rsqrt : BitVec 32 → BitVec 32
/-- SIGMOID of R181. -/
opaque sigmoid : BitVec 32 → BitVec 32
/-- TANH of R181. -/
opaque tanh : BitVec 32 → BitVec 32
/-- GELU of R181. -/
opaque gelu : BitVec 32 → BitVec 32
/-- The value with which a flight goes on after a mid-flight CVT of a NaN into a format without a NaN code, by format. -/
opaque cvtNan : Nat → BitVec 32

/-- The data bytes of a ledger entry whose layout the spec does not give, by TYPE and the entry's numbers (R624). -/
opaque ledgerLayout : Nat → List Nat → List (BitVec 8)

/-- The words of the telemetry item of a steered tensor, whose layout the spec does not give: of its last counted window's
ROWSTEPS, popcount of ROW_SEEN and largest CLIP_c, of its current offsets, by word (R168, R677). -/
opaque steerItem : Nat → Nat → Nat → List Int → Nat → BitVec 32

/-- A byte of a KV page that a rebuild produces from its input, by frame and place (R267, R273): the projection is the schedule's. -/
opaque produced : List (BitVec 8) → Nat → Nat → BitVec 8

/-- A word of an EMPTY control flit apart from its slots' types (R387 gives EMPTY no other content), by the flit's number on its link
since UP and the word. -/
opaque emptyWord : Nat → Nat → BitVec 32

/-- A byte of the mirror area's header, whose layout the spec does not give: of the twin's chip ID, the bind epoch, the stream count and
the state of the initial mirror, by place (R430). -/
opaque mirrorHeader : Nat → Nat → Nat → Nat → Nat → BitVec 8

/-- The bytes of the endpoint's UUID (R671). -/
opaque uuid : Nat → BitVec 8

end Sys2Proof.Config
end

