-- ==== Sys2Proof/Machine/Codes.lean ====
section
/-! DEFINITION. The code tables of the spec: reply statuses (R543), event codes (R561), fault causes (the cause
tables at the end of chapters 02 to 17 and R562). -/

namespace Sys2Proof.Machine

/-! ## Reply statuses (R543) -/
namespace St
def ok : Nat := 0x0
def notReady : Nat := 0x1
def busyMaint : Nat := 0x2
def noSlot : Nat := 0x3
def badParam : Nat := 0x4
def badOpcode : Nat := 0x5
def badCrc : Nat := 0x6
def noMemory : Nat := 0x7
def denied : Nat := 0x8
def wrongState : Nat := 0x9
def timeout : Nat := 0xA
def partitionFault : Nat := 0xB
def takenOver : Nat := 0xC
def streamLost : Nat := 0xD
def retracted : Nat := 0xE
def flashError : Nat := 0xF
end St

/-! ## Event codes (R561) -/
namespace Ev
def takeover : Nat := 0x8001
def retract : Nat := 0x8002
def fault : Nat := 0x8003
def mirrorLost : Nat := 0x8004
def refDrift : Nat := 0x8005
def slipLimit : Nat := 0x8006
def thermal : Nat := 0x8007
def maintEscalate : Nat := 0x8008
end Ev

/-! ## Fault causes -/
namespace Cause
def deadlineMiss : Nat := 0x10
def ccTrap : Nat := 0x20
def poundFault : Nat := 0x21
def blockSeq : Nat := 0x22
def blockCrc : Nat := 0x23
def blockId : Nat := 0x24
def berthFull : Nat := 0x25
def berthEmpty : Nat := 0x26
def dmIllegal : Nat := 0x27
def creditMissing : Nat := 0x28
def spadUe : Nat := 0x29
def meIllegal : Nat := 0x30
def meNoWeights : Nat := 0x31
def meShadowBusy : Nat := 0x32
def meAccMode : Nat := 0x33
def meWeightHdr : Nat := 0x34
def meBashabaMismatch : Nat := 0x35
def meKvOperand : Nat := 0x36
def veIllegal : Nat := 0x40
def veFlightBad : Nat := 0x41
def veScaleRec : Nat := 0x42
def veSumTimeout : Nat := 0x43
def veSumOverflow : Nat := 0x44
def gpIllegal : Nat := 0x50
def gpCtx : Nat := 0x51
def gpAccMode : Nat := 0x52
def lockTimeout : Nat := 0x60
def lockOwner : Nat := 0x61
def lockRange : Nat := 0x62
def lockLeft : Nat := 0x63
def lockStray : Nat := 0x64
def lockIllegal : Nat := 0x65
def creditTimeout : Nat := 0x66
def queueJob : Nat := 0x70
def ctxMap : Nat := 0x71
def hbmRange : Nat := 0x80
def hbmUe : Nat := 0x81
def sluiceBad : Nat := 0x82
def digestMismatch : Nat := 0x83
def hbmMargin : Nat := 0x84
def linkNoRoute : Nat := 0x90
def linkDown : Nat := 0x91
def linkReplay : Nat := 0x92
def xferFail : Nat := 0x93
def retainFull : Nat := 0x94
def timeDisagree : Nat := 0x95
def linkMiswired : Nat := 0x96
def pairFenced : Nat := 0xA0
def hbWire : Nat := 0xA1
def twinCut : Nat := 0xA2
def twinContend : Nat := 0xA3
def mirrorLate : Nat := 0xA4
def retractLate : Nat := 0xA5
def wharfContend : Nat := 0xB0
def wharfOverrun : Nat := 0xB1
def refLost : Nat := 0xB2
def intakeBad : Nat := 0xC0
def intakeStall : Nat := 0xC1
def intakeDma : Nat := 0xC2
def resultOverrun : Nat := 0xC3
def checkTransient : Nat := 0xD0
def checkPermanent : Nat := 0xD1
def checkFull : Nat := 0xD2
def scanFail : Nat := 0xD3
def bistFail : Nat := 0xD4
def coreRetire : Nat := 0xD5
def chipRetire : Nat := 0xD6
def patternInvalid : Nat := 0xD7
def flashUe : Nat := 0xE0
def flashWear : Nat := 0xE1
def flashHot : Nat := 0xE2
def fwFallback : Nat := 0xE3
def ledgerLost : Nat := 0xE4
end Cause

/-! ## Maintenance activities (R687): an ID is kind × 256 + target -/

/-- Kind and target of an activity. -/
def actKind (id : Nat) : Nat := id / 256
def actTarget (id : Nat) : Nat := id % 256

/-- Activities by ID (R687). -/
def actScan (core : Nat) (groupB : Bool) : Nat := 0x100 + core + (if groupB then 0x80 else 0)
def actBist (core : Nat) : Nat := 0x200 + core
def actDredge : Nat := 0x300
def actLedger : Nat := 0x400
def actFirmware : Nat := 0x500
def actPattern : Nat := 0x501
def actSweep : Nat := 0x600
def actReload : Nat := 0x601
def actRemirror : Nat := 0x700
def actRetrain (stack : Nat) : Nat := 0x800 + stack
def actLink (l : Nat) : Nat := 0x900 + l
def actRemap (core : Nat) : Nat := 0xA00 + core

end Sys2Proof.Machine
end

