-- ==== Sys2Proof/Machine/HostTypes.lean ====
section
/-! DEFINITION. The state of the host interface: function blocks, command packets in progress, streams
(14_streams_and_host.md, 15_command_protocol.md) and jobs (09_queues_jobs_partitions.md). -/

namespace Sys2Proof.Machine

/-! ## Commands in progress -/

/-- Where a packet came from, and so where its reply goes. -/
inductive Origin where
  | ring (fn : Nat)
  | tow (ep : Nat)
  deriving DecidableEq, Repr, Inhabited

/-- A packet that passed the lockkeeper's first checks (R540), as the fields of R532. -/
structure Cmd where
  origin : Origin
  opcode : Nat
  partition : Nat
  checkOnly : Bool
  seq : Word
  job : Nat
  tagLo : Word
  tagHi : Word
  payload : List Word
  crc : Word
  readAt : Nat
  deriving DecidableEq, Repr, Inhabited

/-- A remembered packet (R535): its SEQ, its CRC and its reply's words 0 to 13 once it has one. -/
structure Seen where
  seq : Word
  crc : Word
  reply : Option (List Word)
  deriving DecidableEq, Repr, Inhabited

/-- A completion entry that waits for the ring: words 0 to 14 of a reply or an event (R512, R539). -/
structure CqItem where
  isEvent : Bool
  words : List Word
  deriving DecidableEq, Repr, Inhabited

/-- The block of one PCIe function (14 "The function block"). -/
structure FnBlock where
  stray : Word := 0
  sqBase : DWord := 0
  sqEn : Bool := false
  sqLog2 : BitVec 4 := 4
  sqHead : Nat := 0
  sqTail : Nat := 0
  unread : List SqEntry := []
  cqBase : DWord := 0
  cqEn : Bool := false
  cqLog2 : BitVec 4 := 4
  cqHead : Nat := 0
  cqNext : Nat := 0
  cqPhase : Bool := true
  waiting : List CqItem := []
  evtLost : Word := 0
  timeHi : Word := 0
  baseGib : BitVec 7 := 0
  seen : List Seen := []
  deriving DecidableEq, Repr, Inhabited

/-! ## Jobs -/

/-- `JOB_STATE_j.STATE`. -/
inductive JobState where
  | free | loaded | running | parked
  deriving DecidableEq, Repr, Inhabited

/-- The register code of a job state. -/
def JobState.code : JobState → Nat
  | .free => 0 | .loaded => 1 | .running => 2 | .parked => 3

/-- A queued descriptor: its 16 words, its captured scalars K0 to K3 (R195), when it reached the head, and its place in the order
in which the control core issued the core's descriptors (R132). -/
structure QEntry where
  words : List Word
  caps : List Word := []
  headAt : Option Nat := none
  stamp : Nat := 0
  deriving DecidableEq, Repr, Inhabited

/-- What a park keeps of one core of a job beside the save area's bytes (R331, R332): its descriptors in issue order, each with
its queue, the states of both weight sets with ACTIVE_SET, and the row modes of the saved banks. -/
structure Parked where
  entries : List (Nat × QEntry)
  sets : List Nat
  active : Nat
  modes : List (Nat × Bool)
  deriving DecidableEq, Repr, Inhabited

/-- Where a cohort's chunk stands (01 "The life of a chunk"). -/
inductive ChunkPhase where
  | idle | waitRelay | computing | committed
  deriving DecidableEq, Repr, Inhabited

/-- A cohort of a job as it runs: chunks since JOB_START, the chunk's boundary and T0, the relay and mirror
acknowledgements (R31, R32, R37), the tokens still awaited, the tokens held and the chips that sent retained transfers, each as
(chunk sequence, chip) (R418, R578). `relayLast` says that the last run of its relay was sent,
`earlyAck` that it was acknowledged before the boundary; `pipes` are the pipeline's T0s that retained sends carry, by chunk sequence
(R30), `marks` the row marks of the chunk (R728); `deadlineAt` is when the chunk's commit is late (R36); `retracted` is the reason, depth and chip of a RETRACT, `boundPassed` that its record was written (R463);
`abandoned` that the chunk was abandoned and no re-sent input has come since (R586);
`recovery` is when the recovery window of an interrupted chunk opens, `owed` the streams that still owe that chunk (R446, R449). -/
structure Cohort where
  chunk : Nat := 0
  phase : ChunkPhase := .idle
  bk : Nat := 0
  t0 : Nat := 0
  relayAcked : Bool := false
  unmirrored : Bool := false
  mirrorDue : Option Nat := none
  commitAt : Nat := 0
  tokensDue : List (Nat × Nat) := []
  tokensHeld : List (Nat × Nat) := []
  retainedFrom : List (Nat × Nat) := []
  rerun : Bool := false
  retracted : Option (Nat × Nat × Nat) := none
  boundPassed : Bool := false
  relayLast : Bool := false
  earlyAck : Bool := false
  pipes : List (Nat × Nat) := []
  deadlineAt : Option Nat := none
  marks : List (Nat × Nat) := []
  recordsDue : Bool := false
  recovery : Option Nat := none
  owed : List Nat := []
  abandoned : Bool := false
  rate : Option Nat := none
  deriving DecidableEq, Repr, Inhabited

/-- A narrow tensor's steering parameters (R158). -/
structure Steer where
  enable : Bool := false
  downEn : Bool := false
  onDisable : Bool := false
  targetLog2 : Nat := 12
  maxSteps : Nat := 4
  minSamplesLog2 : Nat := 20
  minStreams : Nat := 64
  windowChunks : Nat := 64
  deriving DecidableEq, Repr, Inhabited

/-- One job (R318, R319). `soloProg` says that the solo schedule's programs run on its cores (R26, R447). -/
structure Job where
  state : JobState := .free
  bulk : Bool := false
  classPend : Option Bool := none
  model : Nat := 0
  image : Image := default
  placement : Placement := default
  guardOn : Bool := false
  reducedTest : Bool := false
  cal : List Word := []
  cohorts : Table Cohort := []
  parked : List (Nat × Parked) := []
  steer : Table Steer := []
  startedAt : Nat := 0
  soloProg : Bool := false
  deriving DecidableEq, Repr, Inhabited

/-- A weir's setting and bucket (R344, R346); the level is in 1/256 bytes. -/
structure Weir where
  rate : Nat := 20
  burst : Nat := 16
  level : Nat := 16 * 4096 * 256
  at_ : Nat := 0
  deriving DecidableEq, Repr, Inhabited

/-- A request at a barge arbiter (R339 to R341): its weir (0 HBM read, 1 HBM write, 2 NoC, 3 Elcor egress), the job
(96 and above: maintenance) and the core whose command it serves, its class 0 LATENCY, 1 urgent maintenance, 2 BULK,
3 normal maintenance; when it came; its age; its stored length; the Elcor link; the stamp of the command that it serves and the
index of the barge in that command. -/
structure BargeReq where
  weir : Nat
  job : Nat
  core : Nat
  cls : Nat
  since : Nat
  age : Nat
  bytes : Nat
  link : Nat
  cmd : Nat := 0
  index : Nat := 0
  deriving DecidableEq, Repr, Inhabited

/-- Barges that the restore of a takeover or a maintenance activity has still to move through an arbiter of a partition (R340, R345):
whose they are (a job, or 2^16 + an activity's ID), the weir, which move of an activity it is, and the stored lengths to come, of which
the first waits at the arbiter. -/
structure Move where
  who : Nat
  weir : Nat
  sub : Nat
  todo : List Nat
  deriving DecidableEq, Repr, Inhabited

/-- A switch under way on a partition (R330 to R337). -/
structure Switch where
  victim : Option Nat
  incoming : Nat
  parkedAt : Option Nat
  deriving DecidableEq, Repr, Inhabited

/-- The state of one partition (09 "Partition registers"). Weir key: 0 HBM read, 1 HBM write, 2 NoC, 3+n Elcor
egress on link n. `held` says until when the grant in force at each of the four arbiters holds (R339), `stallAt` up to when the
waits for tokens have been counted in `stall`. -/
structure Part where
  configured : Bool := false
  preemptEn : Bool := false
  ageMax : Nat := 8
  hbmGib : Nat := 0
  baseGib : Nat := 0
  weirsSet : BitVec 4 := 0
  weirs : Table Weir := []
  started : Word := 0
  completed : Word := 0
  killed : Word := 0
  preempted : Word := 0
  stall : List Word := [0, 0, 0, 0]
  switchCycles : Word := 0
  lastSwitch : Option Nat := none
  switch : Option Switch := none
  reqs : List BargeReq := []
  held : Table Nat := []
  stallAt : Nat := 0
  moves : List Move := []
  turns : Table Nat := []
  deriving DecidableEq, Repr, Inhabited

end Sys2Proof.Machine
end

