-- ==== Sys2Proof/Machine/Table.lean ====
section
/-! DEFINITION. Sparse tables by key and the bit-field helpers every other definition uses.  A table lists its
entries by rising key and lists none that equals the value an unlisted key reads as. -/

namespace Sys2Proof

variable {α : Type}

/-- What key `k` reads as: its entry, or `d` when it has none. -/
def Table.look (d : α) (t : Table α) (k : Nat) : α :=
  ((t.find? (fun e => e.1 == k)).map Prod.snd).getD d

/-- The table with key `k` holding `v`; storing the value `d` removes the entry. -/
def Table.put [DecidableEq α] (d : α) (t : Table α) (k : Nat) (v : α) : Table α :=
  t.filter (fun e => decide (e.1 < k)) ++ (if v = d then [] else [(k, v)]) ++
    t.filter (fun e => decide (k < e.1))

/-- Read, change, store. -/
def Table.upd [DecidableEq α] (d : α) (t : Table α) (k : Nat) (f : α → α) : Table α :=
  Table.put d t k (f (Table.look d t k))

/-- Change every entry; an entry that becomes the default goes. -/
def Table.mapV [DecidableEq α] (d : α) (t : Table α) (f : Nat → α → α) : Table α :=
  (t.map (fun e => (e.1, f e.1 e.2))).filter (fun e => decide (e.2 ≠ d))

/-- Keys strictly rising. -/
def Table.rising : Table α → Bool
  | [] => true
  | [_] => true
  | a :: b :: t => decide (a.1 < b.1) && Table.rising (b :: t)

/-- The canonical form: keys strictly rising, no entry equal to what an unlisted key reads as. -/
def Table.wf [DecidableEq α] (d : Nat → α) (t : Table α) : Bool :=
  Table.rising t && t.all (fun e => decide (e.2 ≠ d e.1))

/-- An optional entry: a table whose unlisted keys hold nothing is read with `none` as its default. -/
abbrev OTable (α : Type) := Table (Option α)

/-- The entry at `k`, if there is one. -/
def OTable.at? (t : OTable α) (k : Nat) : Option α := Table.look none t k

/-- The keys that hold something. -/
def OTable.keys (t : OTable α) : List Nat := t.filterMap (fun e => e.2.map (fun _ => e.1))

/-- The entries, in rising key order. -/
def OTable.entries (t : OTable α) : List (Nat × α) := t.filterMap (fun e => e.2.map (fun v => (e.1, v)))

/-- Change the entry at `k` where there is one. -/
def OTable.modify [DecidableEq α] (t : OTable α) (k : Nat) (f : α → α) : OTable α :=
  Table.put none t k ((OTable.at? t k).map f)

/-! ## Bit fields (00_scope.md R4: bit 0 is the least significant) -/

/-- Bits [lo+len-1 : lo] of a number. -/
def bits (w lo len : Nat) : Nat := (w / 2 ^ lo) % 2 ^ len

/-- Bit `i` of a number. -/
def bitAt (w i : Nat) : Bool := bits w i 1 == 1

/-- 1 for true. -/
def b2n (b : Bool) : Nat := if b then 1 else 0

/-- A word from fields (value, low bit); a value is not cut, so each field's value must fit. -/
def pack (fs : List (Nat × Nat)) : Word :=
  BitVec.ofNat 32 ((fs.map (fun f => f.1 * 2 ^ f.2)).sum)

/-- The word [31:0] and the word [63:32] of a 64-bit number. -/
def lo32 (n : Nat) : Word := BitVec.ofNat 32 n
def hi32 (n : Nat) : Word := BitVec.ofNat 32 (n / 2 ^ 32)

/-- The 64-bit number whose low and high words are given. -/
def join64 (lo hi : Word) : Nat := lo.toNat + 2 ^ 32 * hi.toNat

/-- Add to a counter that saturates at its largest value. -/
def satAdd {n : Nat} (c : BitVec n) (k : Nat) : BitVec n :=
  BitVec.ofNat n (min (c.toNat + k) (2 ^ n - 1))

/-- Little-endian bytes of a number (R5). -/
def leBytes : Nat → Nat → List Byte
  | 0, _ => []
  | k + 1, n => BitVec.ofNat 8 n :: leBytes k (n / 256)

/-- The number that little-endian bytes spell (R5). -/
def leNat : List Byte → Nat
  | [] => 0
  | b :: bs => b.toNat + 256 * leNat bs

/-- Cut a byte list into words, little-endian. -/
def bytesToWords : List Byte → List Word
  | a :: b :: c :: d :: t => BitVec.ofNat 32 (leNat [a, b, c, d]) :: bytesToWords t
  | [] => []
  | t => [BitVec.ofNat 32 (leNat t)]

/-- The bytes of words, little-endian. -/
def wordsToBytes (ws : List Word) : List Byte := ws.flatMap (fun w => leBytes 4 w.toNat)

/-- A number as a signed quantity of `n` bits. -/
def signed (n w : Nat) : Int := if w < 2 ^ (n - 1) then (w : Int) else (w : Int) - 2 ^ n

/-- Replace element `i` of a list. -/
def setAt (l : List α) (i : Nat) (v : α) : List α := l.set i v

/-- Keep the last `n` elements of a list. -/
def lastN (n : Nat) (l : List α) : List α := l.drop (l.length - n)

end Sys2Proof
end

