-- ==== Sys2Proof/Machine/CoreTypes.lean ====
section
/-! DEFINITION. The state of one logical core: scratchpad, pounds, credits, control core, locks, queues, engines
(02_core_and_scratchpad.md to 09_queues_jobs_partitions.md). -/

namespace Sys2Proof.Machine

/-! ## Memories -/

/-- A byte memory in canonical form: what an unlisted address reads as depends on the epoch (Machine/Ops.lean);
the epoch counts the resets after which the contents are undefined. -/
structure Mem where
  epoch : Nat := 0
  cells : List Host.Cell := []
  deriving DecidableEq, Repr, Inhabited

/-- The same for 32-bit locations: accumulators, rescale tables, tile registers. -/
structure WMem where
  epoch : Nat := 0
  cells : Table Word := []
  deriving DecidableEq, Repr, Inhabited

/-! ## Scratchpad (02) -/

/-- `POUND_BASE_n` and `POUND_BOUND_n`. -/
structure Pound where
  valid : Bool := false
  guardOn : Bool := false
  remoteW : Bool := false
  remoteR : Bool := false
  readShare : Bool := false
  owner : Nat := 0
  hash : Nat := 0
  base : Nat := 0
  bound : Nat := 0
  deriving DecidableEq, Repr, Inhabited

/-- `DM_CREDIT_k`. -/
structure Credit where
  valid : Bool := false
  avail : Nat := 0
  job : Nat := 0
  destCore : Nat := 0
  destPound : Nat := 0
  count : Nat := 0
  deriving DecidableEq, Repr, Inhabited

/-- A live map-out (R87): the array row, the spare, how many of its 8 words are copied, whether reads use it. -/
structure MapOut where
  bank : Nat
  row : Nat
  copied : Nat := 0
  active : Bool := false
  deriving DecidableEq, Repr, Inhabited

/-- The scratchpad with its tags, occupancy bits, pounds, credits, wheel and repair (R47 to R89). Keys of
`rowCe`: bank × 1024 + array row, holding the always-on times of that row's corrected errors. -/
structure Spad where
  bytes : Mem := {}
  tags : Table Tag := []
  occ : Table Bool := []
  pounds : Table Pound := []
  credits : Table Credit := []
  wheelLo : Word := 0x21542650
  wheelHi : Word := 0x000152D0
  spares : Table Nat := []
  ceCount : Half := 0
  rowCe : Table (List Nat) := []
  maps : List MapOut := []
  scrub : Nat := 0
  deriving DecidableEq, Repr, Inhabited

/-! ## Control core (02) -/

/-- What a stalled control core waits for: a full queue (R45), an empty summary FIFO since a time (R199), the
scan gate (R594). -/
inductive Stall where
  | none
  | queue (q : Nat)
  | summary (rd : Nat) (word : Nat) (since : Nat)
  | scan (rd : Nat)
  deriving DecidableEq, Repr, Inhabited

/-- The control core: x1 to x31, pc, private memory, whether it is halted, the descriptor windows being
filled (key q × 16 + word), its stall, and whether R43 or R199 halted it (R666). -/
structure Cc where
  x : Table DWord := []
  pc : DWord := 0
  mem : Mem := {}
  halted : Bool := true
  window : Table Word := []
  stall : Stall := .none
  trapped : Bool := false
  cycles : Nat := 0
  deriving DecidableEq, Repr, Inhabited

/-! ## Locks and queues (08, 09) -/

/-- A lock: `LOCK_CFG`, FILL, DRAIN, DEPTH, and when a kill quarantined it (R274 to R280, R308). -/
structure Lock where
  valid : Bool := false
  owner : Nat := 0
  cohort : Nat := 0
  remote : Bool := false
  quar : Bool := false
  rest : Nat := 0
  depth0 : Nat := 0
  depth : Nat := 1
  fill : Word := 0
  drain : Word := 0
  killedAt : Nat := 0
  deriving DecidableEq, Repr, Inhabited

/-- A barge of a remote write on its way (R82, R83), under one credit of the sending core: its bytes by their place in the
destination plane, the stamp of its DM_SEND_CORE, and whether that command was killed (R325). -/
structure Parcel where
  src : Nat
  job : Nat
  credit : Nat
  plane : Plane
  bytes : List (Nat × Byte)
  cmd : Nat := 0
  dead : Bool := false
  deriving DecidableEq, Repr, Inhabited

/-- The barges of a started DM_SEND_CORE that have not left the core, in order (R82); `asked` says that the first of them holds
its credit and waits at the NoC injection weir (R80). -/
structure Send where
  cmd : Nat
  job : Nat
  dest : Nat
  credit : Nat
  plane : Plane
  todo : List (List (Nat × Byte))
  asked : Bool := true
  deriving DecidableEq, Repr, Inhabited

/-- The barges of a started DM_LINK_SEND that have not entered the egress of one of its links, in order (R391, R414): `begun` says that the
RUN has, `since` when the last barge did or the command started. -/
structure LinkSend where
  cmd : Nat
  job : Nat
  link : Nat
  run : Run
  todo : List (List Byte × Tag)
  begun : Bool := false
  since : Nat
  deriving DecidableEq, Repr

/-- What a command does at its commit (R324). -/
inductive Eff where
  | untag (ps : List Nat)
  | tags (ts : List (Nat × Tag))
  | occ (os : List (Nat × Bool))
  | hbm (bs : List (Nat × Byte))
  | tiles (ws : List (Nat × Word))
  | tally (pound offset : Nat) (rows : List Nat) (nonfinite : Nat) (clips : List Nat)
  | summary (ws : List Word)
  | flight (n : Nat) (bytes : List Byte)
  | veCounts (clips nonfinite oor : Nat)
  | gpCounts (nonfinite sats rowsteps : Nat)
  | meCounts (nonfinite sat flush busy : Nat)
  | busy (unit cycles : Nat)
  | hbmWrites (lens : List (Nat × Nat))
  | hbmReads (lens : List (Nat × Nat)) (sluice : Bool)
  | meIdle
  | occAt (core : Nat) (os : List (Nat × Bool))
  | remote (core : Nat) (gone : List Nat) (ts : List (Nat × Tag)) (occ : List (Nat × Bool)) (sig : Option Signal)
  | hbmTags (ts : List (Nat × Tag))
  | link (msgs : List LinkMsg) (link : Nat)
  | signal (g : Signal)
  | depth (lock value : Nat)
  | eligible (cohort : Option Nat)
  | checkCrc (original : Bool) (job cohort id : Nat) (crc : Word) (eligible : Bool)
  | retain (cohort chunk dest lock xfer link : Nat) (msgs : List LinkMsg) (own : Nat × Nat)
  deriving DecidableEq, Repr, Inhabited

/-- A started command that has not committed: its queue, job, opcode and descriptor, its captured scalars, what
its commit does, whether it is non-pre-emptible (R326), the bank claims it holds (bit b read, bit 4+b write),
where its destination bytes lie (a scratchpad address, or 2^24 and an operand-cache address), and its compiled cycles. -/
structure Running where
  queue : Nat
  job : Nat
  entry : QEntry
  effects : List Eff
  nonpre : Bool
  claims : Nat
  dest : List Nat
  cycles : Nat
  deriving DecidableEq, Repr, Inhabited

/-! ## Engines (03, 05, 06) -/

/-- A weight set: its state (0 EMPTY, 1 LOADING, 2 LOADED), whether
LOADKV loaded it (then ORIENT, INT4, D_H, VALID and the scale bytes), and its weight block image's or code bytes
(03 R91, R116, 07 R248). -/
structure WeightSet where
  state : Nat := 0
  kv : Option (Bool × Bool × Nat × Nat) := none
  image : List Byte := []
  kvScales : List Byte := []
  block : Nat := 0
  bashaba : Bool := false
  nOut : Nat := 0
  deriving DecidableEq, Repr, Inhabited

/-- The matrix engine (03). `mode` lists the accumulator rows (bank × 256 + row) that hold INT32; `blocks` counts the eligible blocks of each
cohort's chunk task (key job × 64 + cohort, R565). -/
structure Me where
  set0 : WeightSet := {}
  set1 : WeightSet := {}
  active : Nat := 0
  acc : WMem := {}
  mode : Table Bool := []
  rescale : WMem := {}
  gated : Bool := true
  waking : Bool := false
  wakeAt : Nat := 0
  idleAt : Nat := 0
  nonfinite : Word := 0
  sat : Word := 0
  flush : Word := 0
  claimWait : Word := 0
  busy : DWord := 0
  claimSince : Option Nat := none
  checkSet : WeightSet := {}
  blocks : Table Nat := []
  deriving DecidableEq, Repr, Inhabited

/-- The vector engine (05): tiles (key (T × 8 + row) × 256 + column), operand cache, flight table entries (128
bytes each, absent when invalid), summary FIFO, counters. -/
structure Ve where
  tiles : WMem := {}
  cache : Mem := {}
  flights : OTable (List Byte) := []
  fifo : List (List Word) := []
  ranges : Table (Nat × Nat × Nat × Nat) := []
  clip : Word := 0
  nonfinite : Word := 0
  gatherOor : Word := 0
  sumWait : Word := 0
  busy : DWord := 0
  sumSince : Option Nat := none
  deriving DecidableEq, Repr, Inhabited

/-- The gate pipeline's counters (06). -/
structure Gp where
  nonfinite : Word := 0
  sat : Word := 0
  rowsteps : DWord := 0
  busy : DWord := 0
  deriving DecidableEq, Repr, Inhabited

/-- A retained transfer (11 R417): COHORT and CHUNK_SEQ are the destination's, `own` the cohort and chunk whose task sent it; `confirmed`
says that its check token has gone (R577). -/
structure Retained where
  xfer : Nat
  dest : Nat
  cohort : Nat
  chunk : Nat
  lock : Nat
  entry : QEntry
  link : Nat
  msgs : List LinkMsg
  own : Nat × Nat
  confirmed : Bool := false
  deriving DecidableEq, Repr, Inhabited

/-- A commit flit on its way to a core: the core, job and stamp of the DM_SEND_CORE or DM_FETCH_CORE that sent it, and what it does
where it lands (R83). -/
structure CommitFlit where
  src : Nat
  job : Nat
  cmd : Nat
  effects : List Eff
  deriving DecidableEq, Repr, Inhabited

/-- Lock signals that broke the range of R276 when they took effect, held to the end of their cycle in case others of the same
cycle restore it (R285): the lock, the amounts, and the job that the kill of R287 would take. -/
structure Overflow where
  lock : Nat
  fill : Nat
  drain : Nat
  job : Nat
  deriving DecidableEq, Repr, Inhabited

/-- One logical core. `issued` counts the descriptors that its control core has issued; `signals` are lock signals from other cores
with the always-on time at which each lands (R282). -/
structure CoreSt where
  spad : Spad := {}
  cc : Cc := {}
  locks : Table Lock := []
  lockSel : Byte := 0
  lockWait : Word := 0
  lockStray : Word := 0
  deadlineUs : BitVec 14 := 50
  queues : Table (List QEntry) := []
  running : List Running := []
  me : Me := {}
  ve : Ve := {}
  gp : Gp := {}
  creditWait : Option Nat := none
  issued : Nat := 0
  sends : List Send := []
  linkSends : List LinkSend := []
  arrivals : List Parcel := []
  commits : List CommitFlit := []
  signals : List (Nat × Signal) := []
  overflows : List Overflow := []
  returns : List (Nat × Nat) := []
  retained : List Retained := []
  deriving DecidableEq, Repr, Inhabited

end Sys2Proof.Machine
end

