-- ==== Sys2Proof/Machine/Crc.lean ====
section
/-! DEFINITION. CRC-32C (15_command_protocol.md R534): Castagnoli polynomial 0x1EDC_6F41, reflected, initial
value 0xFFFF_FFFF, final XOR 0xFFFF_FFFF. -/

namespace Sys2Proof.Machine

/-- The reflected Castagnoli polynomial. -/
def crcPoly : Nat := 0x82F63B78

/-- Shift `k` bits through the reflected register. -/
def crcBits : Nat → Nat → Nat
  | 0, r => r
  | k + 1, r => crcBits k (if r % 2 = 1 then (r / 2) ^^^ crcPoly else r / 2)

/-- One byte into the register. -/
def crcByte (r : Nat) (b : Byte) : Nat := crcBits 8 (r ^^^ b.toNat)

/-- CRC-32C of a byte sequence. -/
def crc32c (bs : List Byte) : Word :=
  BitVec.ofNat 32 ((bs.foldl crcByte 0xFFFFFFFF) ^^^ 0xFFFFFFFF)

end Sys2Proof.Machine
end

