-- ==== Sys2Proof/Machine/Scratch.lean ====
section
/-! DEFINITION. Memories and the scratchpad: reading and writing, bank mapping (R54 to R56), pounds (R61), planes
(R53), barge tags (R64 to R69) and berth guard (R72, R73). -/

namespace Sys2Proof.Machine

/-! ## Memories -/

/-- What an unlisted address of a memory reads as: zero before any reset at run time, undefined after one. -/
def Mem.unlisted (m : Mem) (a : Nat) : Byte := if m.epoch = 0 then 0 else Config.freeByte m.epoch a

/-- One byte. -/
def Mem.read (m : Mem) (a : Nat) : Byte := Table.look (m.unlisted a) m.cells a

/-- Store one byte. -/
def Mem.write (m : Mem) (a : Nat) (b : Byte) : Mem :=
  { m with cells := Table.put (m.unlisted a) m.cells a b }

/-- `n` bytes from address `a`. -/
def Mem.readN (m : Mem) (a n : Nat) : List Byte := (List.range n).map (fun i => m.read (a + i))

/-- Store bytes from address `a` upward. -/
def Mem.writeN (m : Mem) (a : Nat) : List Byte → Mem
  | [] => m
  | b :: bs => (m.write a b).writeN (a + 1) bs

/-- Store bytes at their addresses, in order. -/
def Mem.writes (m : Mem) (bs : List (Nat × Byte)) : Mem :=
  bs.foldl (fun m e => m.write e.1 e.2) m

/-- The canonical form of a memory. -/
def Mem.wf (m : Mem) : Bool := Table.wf m.unlisted m.cells

/-- Contents undefined from now on: a fresh epoch, nothing listed. -/
def Mem.lose (_ : Mem) (epoch : Nat) : Mem := { epoch := epoch + 1, cells := [] }

/-- Each memory has epochs of its own: the number of memory `kind` of core `core` (24 for the device) in epoch `e`. -/
def epochOf (e core kind : Nat) : Nat := (e * 32 + core) * 8 + kind

/-- What an unlisted 32-bit location reads as. -/
def WMem.unlisted (m : WMem) (k : Nat) : Word := if m.epoch = 0 then 0 else Config.freeWord m.epoch k

/-- One 32-bit location. -/
def WMem.read (m : WMem) (k : Nat) : Word := Table.look (m.unlisted k) m.cells k

/-- Store one 32-bit location. -/
def WMem.write (m : WMem) (k : Nat) (w : Word) : WMem :=
  { m with cells := Table.put (m.unlisted k) m.cells k w }

/-- `n` locations from key `k`. -/
def WMem.readN (m : WMem) (k n : Nat) : List Word := (List.range n).map (fun i => m.read (k + i))

/-- Store locations from key `k` upward. -/
def WMem.writeN (m : WMem) (k : Nat) : List Word → WMem
  | [] => m
  | w :: ws => (m.write k w).writeN (k + 1) ws

/-- Store locations at their keys, in order. -/
def WMem.writes (m : WMem) (ws : List (Nat × Word)) : WMem :=
  ws.foldl (fun m e => m.write e.1 e.2) m

/-- The canonical form. -/
def WMem.wf (m : WMem) : Bool := Table.wf m.unlisted m.cells

/-- Contents undefined from now on. -/
def WMem.lose (_ : WMem) (epoch : Nat) : WMem := { epoch := epoch + 1, cells := [] }

/-! ## Pounds -/

/-- Pound `n` of a core. -/
def Spad.pound (sp : Spad) (n : Nat) : Pound := Table.look {} sp.pounds n

/-- Bytes that a pound spans. -/
def Pound.size (p : Pound) : Nat := (p.bound - p.base) * 4096

/-- A local access to pound-relative bytes [.., endb) is legal (R61). -/
def Pound.allows (p : Pound) (job : Nat) (write : Bool) (endb : Nat) : Bool :=
  p.valid && (p.owner == job || (!write && p.readShare)) && decide (endb ≤ p.size)

/-- A remote access is legal at its destination (R63). -/
def Pound.allowsRemote (p : Pound) (write : Bool) (endb : Nat) : Bool :=
  p.valid && (if write then p.remoteW else p.remoteR) && decide (endb ≤ p.size)

/-- The bank hash H(q) (R56). -/
def hashOf (h q : Nat) : Nat :=
  if h = 1 then q % 64 else if h = 2 then (q % 64) ^^^ ((q / 64) % 64) else 0

/-- The physical byte address of pound-relative word index `l`, seen with row skew `rs` = r × s (R54). -/
def physWord (p : Pound) (l rs : Nat) : Nat :=
  let q := l / 64
  let b := ((l % 64 + rs) % 64) ^^^ hashOf p.hash q
  ((2 * p.base + q) * 64 + b) * 32

/-- The physical byte address of pound-relative byte `o` with r = 0 (R55). -/
def physByte (p : Pound) (o : Nat) : Nat := physWord p (o / 32) 0 + o % 32

/-! ## Planes -/

/-- The plane of descriptor words `i` to `i + 5`. -/
def planeAt (ws : List Word) (i : Nat) : Plane :=
  let w (k : Nat) : Nat := (ws.getD (i + k) 0).toNat
  { consume := bitAt (w 0) 29, tagmode := bits (w 0) 27 2, pound := bits (w 0) 24 3, offset := bits (w 0) 0 24,
    gen := bits (w 1) 24 8, fmt := bits (w 1) 19 5, skew := bits (w 1) 13 6, widthM1 := bits (w 1) 0 13,
    rowsM1 := bits (w 2) 16 16, pitch := bits (w 2) 0 16, tensor := w 3, bidx := w 4 }

/-- The plane's reserved fields are zero and OFFSET is a multiple of 32 (R15, table "Plane descriptor"). -/
def planeReservedOk (ws : List Word) (i : Nat) : Bool :=
  bits (ws.getD i 0).toNat 30 2 == 0 && bits (ws.getD i 0).toNat 0 5 == 0 && (ws.getD (i + 5) 0) == 0

/-- Words `i` to `i + n − 1` are all zero. -/
def zeroWords (ws : List Word) (i n : Nat) : Bool := ((ws.drop i).take n).all (· == 0)

/-- Legal format codes of a plane. -/
def fmtListed (f : Nat) : Bool := f ≤ 8 || f == 0x10 || f == 0x11

/-- Bytes of one row, and of the whole plane. -/
def Plane.rowBytes (p : Plane) : Nat := (p.widthM1 + 1) * 32
def Plane.rows (p : Plane) : Nat := p.rowsM1 + 1
def Plane.count (p : Plane) : Nat := p.rows * p.rowBytes
/-- First pound-relative byte after the plane (R61). -/
def Plane.endb (p : Plane) : Nat := p.offset + (p.rowsM1 * p.pitch + p.widthM1 + 1) * 32

/-- A plane that R53 does not make illegal, and whose tagging obeys R64 and, when written, R65. -/
def Plane.legal (p : Plane) (write : Bool) : Bool :=
  (p.rowsM1 == 0 || decide (p.widthM1 + 1 ≤ p.pitch)) &&
  (p.skew == 0 || (p.offset % 2048 == 0 && p.pitch % 64 == 0)) &&
  fmtListed p.fmt && p.tagmode != 3 &&
  (p.tagmode == 0 || p.offset % 4096 == 0) &&
  (p.tagmode == 0 || !write || ((p.rowsM1 == 0 || p.pitch == p.widthM1 + 1) && p.count % 4096 == 0))

/-- The plane as remote accesses and the DM's HBM and link moves see it, with r = 0 in every row (R55). -/
def Plane.flat (p : Plane) : Plane := { p with skew := 0 }

/-- Pound-relative byte offset of byte `x` of row `r`. -/
def Plane.byteAt (p : Plane) (r x : Nat) : Nat := p.offset + r * p.pitch * 32 + x

/-- The physical addresses of row `r`, in order. -/
def rowAddrs (pd : Pound) (p : Plane) (r : Nat) : List Nat :=
  (List.range (p.widthM1 + 1)).flatMap (fun w =>
    let a := physWord pd (p.offset / 32 + r * p.pitch + w) (r * p.skew)
    (List.range 32).map (a + ·))

/-- The physical addresses of a whole plane, in row order. -/
def planeAddrs (pd : Pound) (p : Plane) : List Nat := (List.range p.rows).flatMap (rowAddrs pd p)

/-- The physical words of a plane, in row order. -/
def planeWords (pd : Pound) (p : Plane) : List Nat :=
  (List.range p.rows).flatMap (fun r =>
    (List.range (p.widthM1 + 1)).map (fun w => physWord pd (p.offset / 32 + r * p.pitch + w) (r * p.skew)))

/-- Two local planes have a byte in common (R75, R221). -/
def planesMeet (sp : Spad) (a b : Plane) : Bool :=
  let pa := sp.pound a.pound
  let pb := sp.pound b.pound
  decide (pa.base * 4096 + a.offset / 2048 * 2048 < pb.base * 4096 + b.endb + 2048) &&
  decide (pb.base * 4096 + b.offset / 2048 * 2048 < pa.base * 4096 + a.endb + 2048) &&
  (planeWords pa a).any (fun x => (planeWords pb b).contains x)

/-- The bytes of row `r` of a plane. -/
def readRow (sp : Spad) (p : Plane) (r : Nat) : List Byte :=
  (rowAddrs (sp.pound p.pound) p r).map sp.bytes.read

/-- The bytes of a plane. -/
def readPlane (sp : Spad) (p : Plane) : List Byte :=
  (planeAddrs (sp.pound p.pound) p).map sp.bytes.read

/-- Write bytes over a plane, in row order. -/
def writePlane (sp : Spad) (p : Plane) (bs : List Byte) : Spad :=
  { sp with bytes := sp.bytes.writes ((planeAddrs (sp.pound p.pound) p).zip bs) }

/-- Bytes of a pound, read with r = 0. -/
def readPound (sp : Spad) (n o len : Nat) : List Byte :=
  (List.range len).map (fun i => sp.bytes.read (physByte (sp.pound n) (o + i)))

/-- Addressed bytes for a store to a pound with r = 0. -/
def poundBytes (sp : Spad) (n o : Nat) (bs : List Byte) : List (Nat × Byte) :=
  (List.range bs.length).zip bs |>.map (fun e => (physByte (sp.pound n) (o + e.1), e.2))

/-- V is cleared in the tags of barge positions (R66). -/
def Spad.untag (sp : Spad) (ps : List Nat) : Spad :=
  { sp with tags := ps.foldl (fun t b => Table.upd {} t b (fun g => if g.v then { g with v := false } else g)) sp.tags }

/-- The barge positions of `len` bytes from offset `o` of a pound. -/
def spanBarges (pd : Pound) (o len : Nat) : List Nat :=
  if len = 0 then [] else (List.range ((o + len - 1) / 4096 + 1 - o / 4096)).map (fun i => pd.base + o / 4096 + i)

/-- Store bytes to a pound with r = 0, untagged (R66). -/
def writePound (sp : Spad) (n o : Nat) (bs : List Byte) : Spad :=
  { sp with bytes := sp.bytes.writes (poundBytes sp n o bs) }.untag (spanBarges (sp.pound n) o bs.length)

/-- A little-endian word of a pound. -/
def poundWord (sp : Spad) (n o : Nat) : Word := BitVec.ofNat 32 (leNat (readPound sp n o 4))

/-! ## Barges and tags -/

/-- The barge positions that a plane touches, with the index j of each within the plane, in order. -/
def Plane.barges (p : Plane) (pd : Pound) : List (Nat × Nat) :=
  let first := p.offset / 4096
  let last := (p.endb - 1) / 4096
  (List.range (last + 1 - first)).filterMap (fun j =>
    let lo := (first + j) * 4096
    let touched := (List.range p.rows).any (fun r =>
      decide (p.byteAt r 0 < lo + 4096) && decide (lo < p.byteAt r 0 + p.rowBytes))
    if touched then some (pd.base + first + j, j) else none)

/-- The 4,096 bytes of a barge position, in address order of the pound with r = 0. DESIGN CHOICE (log 133): the tag CRC of R67 covers
the barge in this order also when the plane that wrote it has SKEW ≠ 0. -/
def bargeBytes (sp : Spad) (pd : Pound) (pos : Nat) : List Byte :=
  (List.range 4096).map (fun i => sp.bytes.read (physByte pd ((pos - pd.base) * 4096 + i)))

/-- The tag of a barge position. -/
def Spad.tag (sp : Spad) (pos : Nat) : Tag := Table.look {} sp.tags pos

/-- Whether a plane reads every byte of the barge at index `j`: as one run of bytes, or within one of its rows. -/
def Plane.coversBarge (p : Plane) (j : Nat) : Bool :=
  let lo := p.offset / 4096 * 4096 + j * 4096
  let row (r : Nat) : Bool := decide (p.byteAt r 0 ≤ lo) && decide (lo + 4096 ≤ p.byteAt r 0 + p.rowBytes)
  ((p.rowsM1 == 0 || p.pitch == p.widthM1 + 1) && decide (p.offset ≤ lo) && decide (lo + 4096 ≤ p.endb)) ||
  (List.range p.rows).any row

/-- The checks of R68 on one barge, `none` when all pass. DESIGN CHOICE (log 133): berth guard's BERTH_EMPTY (R73) comes before the
steps of R68, and a command's source tags come before its destination's BERTH_FULL (R72). -/
def tagCheck1 (sp : Spad) (p : Plane) (pos j : Nat) : Option Nat :=
  let pd := sp.pound p.pound
  let t := sp.tag pos
  if pd.guardOn ∧ Table.look false sp.occ pos = false then some Cause.berthEmpty
  else if !t.v then some Cause.blockSeq
  else if t.gen ≠ p.gen then some Cause.blockSeq
  else if p.tagmode = 2 ∧ (t.tensor.toNat ≠ p.tensor ∨ t.block.toNat ≠ (p.bidx + j) % 2 ^ 32) then some Cause.blockId
  else if p.fmt ≠ 0 ∧ t.fmt ≠ p.fmt then some Cause.blockId
  else if p.coversBarge j ∧ crc32c (bargeBytes sp pd pos) ≠ t.crc then some Cause.blockCrc
  else none

/-- The first tag fault of a read, barge by barge (R68). -/
def tagCheck (sp : Spad) (p : Plane) : Option Nat :=
  if p.tagmode = 0 then none
  else (p.barges (sp.pound p.pound)).findSome? (fun b => tagCheck1 sp p b.1 b.2)

/-- BERTH_FULL of a tagged write under berth guard (R72). -/
def berthFull (sp : Spad) (p : Plane) : Option Nat :=
  let pd := sp.pound p.pound
  if p.tagmode ≠ 0 ∧ pd.guardOn ∧ (p.barges pd).any (fun b => Table.look false sp.occ b.1) then some Cause.berthFull
  else none

/-- The tags that a tagged write puts on its barges (R67), given the scratchpad with the bytes written and, for a
DM copy of a tagged source, the tensors of the source's barges in order. -/
def newTags (sp : Spad) (p : Plane) (tensors : List Word) : List (Nat × Tag) :=
  let pd := sp.pound p.pound
  (p.barges pd).map (fun b =>
    (b.1, { crc := crc32c (bargeBytes sp pd b.1), tensor := tensors.getD b.2 (BitVec.ofNat 32 p.tensor),
            block := BitVec.ofNat 32 (p.bidx + b.2), v := true, slen := 64, fmt := p.fmt, gen := p.gen }))

/-- An untagged write clears V in the tags of the barges it touches (R66). -/
def clearTags (sp : Spad) (p : Plane) : Spad := sp.untag ((p.barges (sp.pound p.pound)).map (·.1))

/-- Barge positions that a consuming read drains at commit (R73). -/
def drained (sp : Spad) (p : Plane) : List (Nat × Bool) :=
  let pd := sp.pound p.pound
  if p.tagmode ≠ 0 ∧ pd.guardOn ∧ p.consume then (p.barges pd).map (fun b => (b.1, false)) else []

/-- Barge positions that a tagged write fills at commit (R72). -/
def filled (sp : Spad) (p : Plane) : List (Nat × Bool) :=
  let pd := sp.pound p.pound
  if p.tagmode ≠ 0 ∧ pd.guardOn then (p.barges pd).map (fun b => (b.1, true)) else []

/-- The pound-relative offset of a physical byte address (the inverse of R55), and whether the byte lies in a plane's extent, from its
OFFSET to its end. -/
def Pound.offsetOf (p : Pound) (a : Nat) : Nat :=
  let q := a / 2048 - 2 * p.base
  (q * 64 + ((a % 2048 / 32) ^^^ hashOf p.hash q)) * 32 + a % 32
def Plane.inExtent (p : Plane) (pd : Pound) (a : Nat) : Bool :=
  decide (2 * pd.base ≤ a / 2048) && decide (p.offset ≤ pd.offsetOf a) && decide (pd.offsetOf a < p.endb)

/-- What the commit does to the tags and occupancy bits of an output plane whose bytes now stand in `sp` (R66, R67, R72, R324). -/
def planeEffs (sp : Spad) (p : Plane) (tensors : List Word) : List Eff :=
  if p.tagmode = 0 then [.untag ((p.barges (sp.pound p.pound)).map (·.1))]
  else [.tags (newTags sp p tensors), .occ (filled sp p)]

/-- Rows of bytes written over a plane's rows: a row's surplus bytes and surplus rows go nowhere, and bytes that no row reaches stay. -/
def storeRows (sp : Spad) (p : Plane) (rows : List (List Byte)) : Spad × List Eff :=
  let at_ := ((List.range p.rows).zip rows).flatMap (fun e => (rowAddrs (sp.pound p.pound) p e.1).zip e.2)
  let sp' := { sp with bytes := sp.bytes.writes at_ }
  (sp', planeEffs sp' p [])

/-- A local output plane written: the bytes now; answers the scratchpad and what the commit does to its tags and occupancy bits
(R66, R67, R72, R324). -/
def storePlane (sp : Spad) (p : Plane) (bs : List Byte) (tensors : List Word) : Spad × List Eff :=
  let sp' := writePlane sp p bs
  (sp', planeEffs sp' p tensors)

end Sys2Proof.Machine
end

