-- ==== Sys2Proof/Machine/Operands.lean ====
section
/-! DEFINITION. The descriptor forms that every engine shares: word 0 and the signal fields (R120), the checks of a
descriptor at the head of its queue, bank claims (R129 to R132), durations (R52, R124), and the three ways in which
a command at the head ends: it is held there, it faults, or it starts. -/

namespace Sys2Proof.Machine

/-- Word `i` of a descriptor as a number. -/
def dw (ws : List Word) (i : Nat) : Nat := (ws.getD i 0).toNat

/-- OPCODE and JOB of word 0. -/
def dOp (ws : List Word) : Nat := bits (dw ws 0) 0 8
def dJob (ws : List Word) : Nat := bits (dw ws 0) 8 7

/-- The signal of words 0 and 1; the core is this one for SIG_CORE = 0x1F. -/
def dSignal (core : Nat) (ws : List Word) : Option Signal :=
  let k := bits (dw ws 0) 16 2
  let c := bits (dw ws 1) 0 5
  if k = 0 then none else some { core := if c = 0x1F then core else c, lock := bits (dw ws 0) 24 8, kind := k, amount := 1 }

/-- Word 0's reserved bits are zero, SIG_KIND is listed and SIG_CORE is listed (R15, R120). -/
def word0Ok (ws : List Word) : Bool :=
  bits (dw ws 0) 18 6 == 0 && bits (dw ws 0) 15 1 == 0 && bits (dw ws 0) 16 2 != 3 &&
  (decide (bits (dw ws 1) 0 5 < 24) || bits (dw ws 1) 0 5 == 0x1F)

/-- How a command at the head of its queue ends its row: it stays there, it faults before its first access, it is stopped by a
fault at an access (its destination bytes are undefined: R123, R206, R236, R324), or it starts. -/
inductive EngRes where
  | hold (c : CoreSt)
  | fault (c : CoreSt) (cause : Nat)
  | stopped (c : CoreSt) (cause : Nat) (dest : List Nat)
  | run (c : CoreSt) (effects : List Eff) (dest : List Nat) (claims : Nat) (nonpre : Bool) (cycles : Nat)
  deriving DecidableEq, Repr

/-- Claims held by started commands: (read mask, write mask). -/
def heldClaims (rs : List Running) : Nat × Nat :=
  (rs.foldl (fun a r => a ||| bits r.claims 0 4) 0, rs.foldl (fun a r => a ||| bits r.claims 4 4) 0)

/-- A claim mask (read in bits 3 to 0, write in bits 7 to 4) conflicts with those held (R130): only the write
claims of ME commands tolerate each other. -/
def claimConflict (rs : List Running) (claims : Nat) : Bool :=
  let h := heldClaims rs
  let r := bits claims 0 4
  let w := bits claims 4 4
  (r &&& (h.1 ||| h.2)) != 0 || (w &&& h.1) != 0

/-- Read claim and write claim on a bank. -/
def readClaim (bank : Nat) : Nat := 2 ^ bank
def writeClaim (bank : Nat) : Nat := 2 ^ (4 + bank)

/-- Slots of class `cls` in a port wheel (R48). -/
def wheelSlots (lo hi : Word) (cls : Nat) : Nat :=
  ((List.range 10).countP (fun i => bits lo.toNat (3 * i) 3 == cls)) +
  ((List.range 6).countP (fun i => bits hi.toNat (3 * i) 3 == cls))

/-- ⌈a / b⌉. -/
def ceilDiv (a b : Nat) : Nat := (a + b - 1) / b

/-- P(G): cycles in which a class with `slots` slots receives `g` grants (03 Timing). -/
def portCycles (slots g : Nat) : Nat := 16 * ceilDiv g slots

/-- The compiled duration with maintenance cycles (R52). -/
def withMaint (t0 : Nat) : Nat := t0 + ceilDiv t0 4095

/-- Cycles of CCLK in a span of nanoseconds (R3): 6 cycles in 5 ns. -/
def cyclesOf (ns : Nat) : Nat := ns * 6 / 5

/-- CCLK edges between two times in nanoseconds. -/
def cyclesBetween (a b : Nat) : Nat := cyclesOf b - cyclesOf a

/-- The nanoseconds that `n` cycles of CCLK take, rounded up to the model's clock. -/
def nsOf (n : Nat) : Nat := ceilDiv (n * 5) 6

/-- An operand-cache address as `Running.dest` names it, beside the scratchpad's 24-bit addresses. -/
def cacheDest (a : Nat) : Nat := 2 ^ 24 + a

/-- Destination bytes that a stopped command leaves undefined (R123, R206, R236, R324). -/
def CoreSt.loseBytes (c : CoreSt) (draw : Nat) (dest : List Nat) : CoreSt :=
  let low := dest.filter (fun a => decide (a < cacheDest 0))
  let high := dest.filter (fun a => decide (cacheDest 0 ≤ a))
  { c with
    spad := { c.spad with bytes := c.spad.bytes.writes (low.map (fun a => (a, Config.freeOut draw a))) },
    ve := { c.ve with cache := c.ve.cache.writes (high.map (fun a => (a - cacheDest 0, Config.freeOut draw a))) } }

/-- A plane's own fields are legal and its reserved fields zero. -/
def planeOk (ws : List Word) (i : Nat) (write : Bool) : Bool :=
  planeReservedOk ws i && (planeAt ws i).legal write

/-- The local pound check of R62 on a plane. -/
def planePound (sp : Spad) (job : Nat) (p : Plane) (write : Bool) : Bool :=
  (sp.pound p.pound).allows job write p.endb

end Sys2Proof.Machine
end

