-- ==== Sys2Proof/Machine/SysTypes.lean ====
section
/-! DEFINITION. The state of the units beside the cores: HBM stacks (10), links and schedule time (11), pair (12),
wharves (13), integrity (16), flash and ledger (17), reset (18), management (19), JTAG (20). -/

namespace Sys2Proof.Machine

/-! ## HBM (10_hbm_and_sluice.md "Registers") -/

/-- The block of one stack: `HBM_STATUS` and the counters.  `margin` is 0 PENDING, 1 PASS, 2 FAIL, 3 RETRAINING. -/
structure Stack where
  trained : Bool := false
  trainSrc : Bool := false
  margin : Nat := 0
  temp : Nat := 0
  ce : Word := 0
  ueAddr : DWord := 0
  rdBytes : DWord := 0
  wrBytes : DWord := 0
  barges : Word := 0
  saved : DWord := 0
  pcCe : Table Word := []
  rowCe : Table (List Nat) := []
  refreshes : Table Nat := []
  deriving DecidableEq, Repr, Inhabited

/-! ## Links (11_elcor_links.md) -/

/-- `LINK_STATUS.STATE`. -/
inductive LinkState where
  | down | training | up | failed | markedOut | miswired
  deriving DecidableEq, Repr, Inhabited

/-- The register code of a link state. -/
def LinkState.code : LinkState → Nat
  | .down => 0 | .training => 1 | .up => 2 | .failed => 3 | .markedOut => 4 | .miswired => 5

/-- A transfer being received on a link (R386, R413 to R416): its run, its barges so far, how many parts of a
striped transfer have committed, and whether it is being discarded. -/
structure Transfer where
  run : Run
  got : List (List Byte × Tag) := []
  parts : Nat := 0
  bad : Bool := false
  deriving DecidableEq, Repr

/-- A flit (R384): its body of 256 bytes and its sideband byte. -/
structure Flit where
  body : List Byte
  side : Byte
  deriving DecidableEq, Repr, Inhabited

/-- A link's block and the state of both its directions. `cred`, `freed` and `dry` are keyed by VC: 0 data, 1 mirror,
2 sync, 3 management; `dry` says since when a VC has had no credit. `upAt` is when the link came UP, `txCount` numbers the flits sent since
then (R388), `slots` counts the flit slots that they and their re-sent copies took, and `sent` keeps the last flits that were not EMPTY,
by number. `txRun` is the run that is open in the direction of sending, `txRuns` are the runs whose RUN has left and whose COMMIT has not
(R386). -/
structure LinkSt where
  state : LinkState := .down
  peerPort : Nat := 0
  peerChip : Nat := 0
  lanesOk : Nat := 0
  trainMs : Nat := 0
  delay : Half := 0
  fecCorr : Word := 0
  fecUncorr : Word := 0
  replay : Word := 0
  replayLate : Word := 0
  txFlits : DWord := 0
  rxFlits : DWord := 0
  creditWait : Word := 0
  transit : Nat := 0
  step : Nat := 0
  trainAt : Nat := 0
  tries : Nat := 0
  upAt : Nat := 0
  txCount : Nat := 0
  slots : Nat := 0
  rxSeq : Nat := 0
  cred : Table Nat := []
  dry : Table Nat := []
  freed : Table Nat := []
  freedAt : Option Nat := none
  egress : List LinkMsg := []
  altMirror : Bool := false
  boundary : Nat := 0
  window : List Bool := []
  sent : List (Nat × Flit) := []
  txRun : Option (Nat × Nat) := none
  txRuns : List Run := []
  fails : Table Nat := []
  current : OTable Transfer := []
  open_ : List Transfer := []
  waitSince : Option Nat := none
  markRx : Option (Nat × Nat) := none
  offset : Int := 0
  heartbeat : Option Nat := none
  deriving DecidableEq, Repr, Inhabited

/-- Schedule time (R399 to R404) and the chip's identity (R405). -/
structure TimeSt where
  now : Nat := 0
  up : Nat := 0
  locked : Bool := false
  master : Bool := false
  suspect : Bool := false
  parent : Nat := 0x3F
  offset : Int := 0
  disagree : Word := 0
  ppsEn : Bool := false
  good : Nat := 0
  bad : Nat := 0
  jumped : Bool := false
  adjust : Int := 0
  noParent : Option Nat := none
  chipValid : Bool := false
  chip : Nat := 0
  timeOut : Bool := false
  pulseAt : Nat := 0
  deriving DecidableEq, Repr, Inhabited

/-! ## Pair (12_pairs_and_takeover.md) -/

/-- `PAIR_STATUS.STATE`. -/
inductive PairState where
  | unbound | bound | syncing | mirrored | unmirrored | solo | yielded | fenced
  deriving DecidableEq, Repr, Inhabited

/-- The register code of a pair state. -/
def PairState.code : PairState → Nat
  | .unbound => 0 | .bound => 1 | .syncing => 2 | .mirrored => 3 | .unmirrored => 4 | .solo => 5 | .yielded => 6
  | .fenced => 7

/-- The pair state with a given code, as a heartbeat carries it. -/
def PairState.ofCode : Nat → PairState
  | 1 => .bound | 2 => .syncing | 3 => .mirrored | 4 => .unmirrored | 5 => .solo | 6 => .yielded | 7 => .fenced
  | _ => .unbound

/-- A stream table entry of the mirror area (12 "Stream table entry"), with the twin's stream and the schedule time at
which the mirror it holds became current. HANDLE, JOB and COHORT are those of the stream. `captured` is the chunk that the chip's own
wharf inputs gave, with its closing FSYNC edge (R28, R429). -/
structure MirrorEntry where
  valid : Bool := false
  cur : Bool := false
  applyPend : Bool := false
  stream : Option Stream := none
  state4k : Nat := 0
  mirrorSeq : Nat := 0
  relaySeq : Nat := 0
  relayHeld : Bool := false
  captured : Option (Nat × Nat) := none
  heldAt : Nat := 0
  deriving DecidableEq, Repr, Inhabited

/-- A planned handover under way (R453): direction, H, and (job, cohort) pairs that have not moved. -/
structure Handover where
  give : Bool
  at_ : Nat
  moving : List (Nat × Nat)
  deriving DecidableEq, Repr, Inhabited

/-- A mirror that was sent and is not acknowledged: its job, cohort and chunk, when it is late (R435; an initial mirror has no such
time), and the summary slots that it carried, as (stream index, tensor, slot) (R271). -/
structure MirrorSent where
  job : Nat
  cohort : Nat
  chunk : Nat
  due : Option Nat
  slots : List (Nat × Nat × Nat)
  deriving DecidableEq, Repr, Inhabited

/-- The pair block and what R424 to R468 keep. `carriedPlane` is the plane of the failed chip whose cohorts a survivor carries (R734). Times are always-on times. `decided` is the row of R442 that was last reported,
`twinChunks` the chunk sequence of the mirror held, by job × 64 + cohort, `kept` the streams that a giver keeps (R454). -/
structure Pair where
  state : PairState := .unbound
  spare : Bool := false
  asSpare : Bool := false
  isolated : Bool := false
  hbOutOk : Bool := false
  witnessOk : Bool := false
  twinChip : Nat := 0
  epoch : Half := 0
  twinEpoch : Option Nat := none
  twinState : PairState := .unbound
  hbInAt : Option Nat := none
  aliveAt : Nat := 0
  hbSeq : Half := 0
  wire : Bool := false
  pad : List Bool := []
  pingSeq : Half := 0
  pings : List (Nat × Nat × Nat) := []
  pinged : Bool := false
  echoed : Bool := false
  decided : Nat := 0
  takeovers : Word := 0
  fences : Word := 0
  relayMiss : Word := 0
  mirrorLate : Word := 0
  stale : Word := 0
  retractTx : Word := 0
  retractRx : Word := 0
  retractLate : Word := 0
  lastTakeover : DWord := 0
  mirror : Table MirrorEntry := []
  sent : List MirrorSent := []
  jobSlot : Table Nat := []
  twinChunks : Table Nat := []
  mirrorSyncing : Bool := false
  ownSynced : Bool := false
  twinSynced : Bool := false
  handover : Option Handover := none
  kept : List (Nat × Stream) := []
  restoreAt : Option Nat := none
  decisionAt : Nat := 0
  linksUpSince : Option Nat := none
  standing : Option Nat := none
  carriedPlane : Option Nat := none
  gave : Bool := false
  deriving DecidableEq, Repr, Inhabited

/-! ## Wharves (13_wharves.md) -/

/-- `WH_STATUS.STATE`. -/
inductive WharfState where
  | stopped | armed | running | standby
  deriving DecidableEq, Repr, Inhabited

/-- The register code of a wharf state. -/
def WharfState.code : WharfState → Nat
  | .stopped => 0 | .armed => 1 | .running => 2 | .standby => 3

/-- The slip buffer of one wharf for one cohort (R493, R739). A frame is its RX channels' sample bytes. -/
structure SlipBuf where
  frames : List (List (List Byte)) := []
  dropped : Bool := false
  b : Nat := 0
  n : Nat := 0
  periodNs : Nat := 0
  gap : Bool := false
  deriving DecidableEq, Repr, Inhabited

/-- A chunk of intake that a wharf has closed and not yet written into berths (R489). -/
structure WharfChunk where
  job : Nat
  cohort : Nat
  t0 : Nat
  gap : Bool
  frames : List (List (List Byte))
  deriving DecidableEq, Repr, Inhabited

/-- The output samples of one stream's chunk on a wharf: the number of the free values that they are, the stream's first TX
channel and its TX count. -/
structure TxSource where
  draw : Nat
  first : Nat
  count : Nat
  deriving DecidableEq, Repr, Inhabited

/-- A chunk's playout (R491 to R494): P_k, the samples of its n frames once the chunk has committed, the position of its next
frame, whether it has started, the frame of the chunk before it that came last, and whether that was repeated. -/
structure TxChunk where
  job : Nat
  cohort : Nat
  chunk : Nat
  at_ : Nat
  n : Nat
  pos : Nat := 0
  frames : Option (List TxSource) := none
  started : Bool := false
  prev : Option (List TxSource × Nat) := none
  repeated : Bool := false
  deriving DecidableEq, Repr, Inhabited

/-- One wharf: its block, its rings and its slip buffers (keys job × 32 + cohort). -/
structure Wharf where
  cfg : Word := 0x00000008
  clk : Word := 0
  frac : Word := 0
  rxMask : Word := 0
  txMask : Word := 0
  state : WharfState := .stopped
  sharedAt : Option Nat := none
  contend : Bool := false
  phase : Int := 0
  slipDrop : Word := 0
  slipRep : Word := 0
  rxOverrun : Word := 0
  txUnderrun : Word := 0
  refFailover : Word := 0
  frames : DWord := 0
  trigPin : Bool := false
  startPending : Bool := false
  openAt : Nat := 0
  lastClose : Option Nat := none
  hiZ : Bool := true
  bufs : Table SlipBuf := []
  closed : List WharfChunk := []
  tx : List TxChunk := []
  lastTx : List (List Byte) := []
  txTail : List Bool := []
  winDrop : Nat := 0
  winRep : Nat := 0
  stopping : Bool := false
  refNext : Option (Nat × Nat) := none
  enabling : Bool := false
  swapAt : Option Nat := none
  deriving DecidableEq, Repr, Inhabited

/-- One audio reference: `AREF_STATUS_r` (0 ABSENT, 1 NORMAL, 2 DRIFT, 3 FAILED), its window drifts in 0.1 ppm
(newest last) and its runs of consecutive windows (R497, R498). -/
structure Reference where
  state : Nat := 0
  nom : Nat := 0
  drift : Int := 0
  events : Word := 0
  drifts : List Int := []
  edgeRun : Nat := 0
  calmRun : Nat := 0
  deriving DecidableEq, Repr, Inhabited

/-! ## Integrity (16_integrity_and_field_test.md) -/

/-- A check table entry (R574): the CRCs, when the first came, its block number. -/
structure Check where
  job : Nat
  cohort : Nat
  id : Nat
  orig : Option Word := none
  dup : Option Word := none
  since : Nat := 0
  block : Nat := 0
  origCore : Nat := 0
  dupCore : Nat := 0
  passed : Bool := false
  deriving DecidableEq, Repr, Inhabited

/-- A first-run check that failed and waits for its re-run's verdict (R580): late or mismatched, and the first
duplicate's CRC. -/
structure Suspicion where
  part : Nat
  job : Nat
  cohort : Nat
  id : Nat
  late : Bool
  dup : Word
  orig : Word
  block : Nat
  origCore : Nat
  dupCore : Nat
  deriving DecidableEq, Repr, Inhabited

/-- `CORE_HEALTH` and the counters beside it, the scan state of one core. `state` 0 GOOD, 1 SUSPECT, 2 RETIRING. `pass` is the
pass under way (0 group A, 1 group B, 2 BIST), `todo` its segments yet to run, `ran` those that ran, `pattern` its first failing
pattern; `told` says that the retirement was found impossible (R592). -/
structure Health where
  state : Nat := 0
  source : Nat := 0
  passes : Half := 0
  transient : Word := 0
  permanent : Word := 0
  scanPasses : Word := 0
  segFail : Word := 0
  transientAt : List Nat := []
  crcAt : List Nat := []
  intervalMin : Nat := 1440
  lastA : Nat := 0
  lastB : Nat := 0
  lastBist : Nat := 0
  pass : Option Nat := none
  todo : List Nat := []
  ran : Nat := 0
  retry : Bool := false
  failed : Bool := false
  pattern : Nat := 0xFFFFFFFF
  told : Bool := false
  deriving DecidableEq, Repr, Inhabited

/-- A signature record (R603, R604): its keys; `draw` numbers the free value of VCORE, which no rule fixes. -/
structure SigRec where
  index : Nat
  time : Nat
  cls : Nat
  cause : Nat
  core : Option Nat
  unit : Nat
  detail : List Nat
  health : Nat
  chip : Nat
  fw : Nat
  patterns : Nat
  job : Option Nat
  chunk : Nat × Nat
  tj : Int
  site : Nat
  boots : Nat
  draw : Nat
  failmap : List Byte := []
  deriving DecidableEq, Repr, Inhabited

/-- The passes that follow a stand-down (R590): the partition, those that have ended (bits 0 and 1 groups A and B of its first core, bits 2
and 3 of its second), whether one has failed. -/
structure StandScan where
  part : Nat
  ended : Nat := 0
  failed : Bool := false
  deriving DecidableEq, Repr, Inhabited

/-- The device integrity block. `granted` are the bytes that all HBM weirs have granted since `intervalAt`, when the interval of R378
began, `fullLoad` the full intervals in a row; `twinFaults` are the segments whose digest is right here and wrong in the twin (R377). -/
structure Integ where
  libValid : Bool := false
  chipSuspect : Bool := false
  scanCore : Option Nat := none
  devRate : Nat := 2
  patternVersion : Word := 0
  sigNext : Word := 0
  sigOldest : Word := 0
  held : List SigRec := []
  ring : List SigRec := []
  suspectSince : Nat := 0
  digestMin : Option Nat := some 60
  digestBad : List Nat := []
  suspicions : List Suspicion := []
  pkg : Option PatternPkg := none
  twinDigest : Table (List Byte) := []
  ownDigest : Table (List Byte × Nat) := []
  fullLoad : Nat := 0
  afterStand : Option StandScan := none
  granted : Nat := 0
  intervalAt : Nat := 0
  twinFaults : List Nat := []
  deriving DecidableEq, Repr, Inhabited

/-! ## Flash and ledger (17_flash_and_ledger.md) -/

/-- What TYPE 0x0005 keeps of a partition: the last PART_CONFIGURE payload and the last PART_SET_WEIR payloads. -/
structure PartSetting where
  configure : List Word := []
  weirs : List (List Word) := []
  deriving DecidableEq, Repr, Inhabited

/-- The entries of a ledger image (R624). -/
structure Ledger where
  coreMap : List Word := [0x001AC688, 0x001AC688, 0x001AC688, 0x001AC688]
  failedSites : List Nat := []
  rowsApplied : List (Nat × Nat × Nat) := []
  rowsPending : List (Nat × Nat × Nat) := []
  hbmApplied : List (Nat × Nat × Nat) := []
  hbmPending : List (Nat × Nat × Nat) := []
  training : Table (Option (Int × Bool)) := []
  parts : Table PartSetting := []
  steering : Table (List Int) := []
  checkpoint : Nat × Nat := (0, 0)
  health : Table (Nat × Nat) := []
  marked : List Nat := []
  pattern : Word := 0
  fwActive : Nat := 0
  fwPending : Option Nat := none
  host : Table (List Byte) := []
  deriving DecidableEq, Repr, Inhabited

/-- A stored model: its package and whether a read of it was uncorrectable (R619). -/
structure StoredModel where
  pkg : ModelPkg
  damaged : Bool := false
  deriving DecidableEq, Repr, Inhabited

/-- The flash: block management, firmware images, ledger banks, dredge, registers. A bank lists its used slots from slot 0
up, each with the SEQ and content of a valid image or nothing. `erases` and `factoryBad` go by physical block, `grown` lists
(physical block, cause, schedule time), `remaps` the physical blocks of the logical blocks that have moved since manufacture. -/
structure Flash where
  bbtValid : Bool := false
  bank : Nat := 0
  factory : Bool := false
  fwImage : Nat := 0
  fwA : Option FwImage := some { magic := 0x57464B4F, version := 0, svn := 0, device := 0x3612, keyOk := true, sigOk := true }
  fwB : Option FwImage := none
  bootTries : Nat := 0
  boots : Nat := 0
  svn : Nat := 0
  runningSince : Nat := 0
  sealFuses : Nat := 0
  maxTemp : Int := 0
  nand0 : Int := 0
  nand1 : Int := 0
  grown : List (Nat × Nat × Nat) := []
  factoryBad : List Nat := []
  remaps : Table Nat := []
  erases : Table Nat := []
  refreshedAt : Table Nat := []
  wearReported : Option Nat := none
  hotReported : Option Nat := none
  seq : Word := 0
  bankA : List (Option (Word × Ledger)) := []
  bankB : List (Option (Word × Ledger)) := []
  ledger : Ledger := {}
  pending : Ledger := {}
  pendingSince : Option Nat := none
  bad : Word := 0
  refreshed : Word := 0
  dredgeLast : DWord := 0
  dredgeStart : Nat := 0
  dredgeDue : Nat := 0
  ue : Word := 0
  checkpointAt : Nat := 0
  models : List StoredModel := []
  deriving DecidableEq, Repr, Inhabited

/-! ## Reset (18_bringup_and_reset.md) -/

/-- The reset block, the pins and where bring-up stands. `phase` 4 with `ready` is READY; `coldPend` says that POR_N has been
low since the last bring-up began, `perstPend` that a PERST_N came during a thermal hold (R663), `retired` names the core
of a retirement restart (R591), `afterReply` the reply that a warm reset waits for (R552). -/
structure Reset where
  kind : Nat := 0
  cause : Nat := 0
  thermHold : Bool := false
  stop : Nat := 0
  attempts : Nat := 0
  priorPhase : Nat := 0
  warm : Word := 0
  core : Word := 0
  phase2Ms : Nat := 0
  totalMs : Nat := 0
  readyTime : DWord := 0
  phase : Nat := 0
  ready : Bool := false
  readyUp : Nat := 0
  porLow : Bool := false
  perstLow : Bool := false
  quiesce : Option Nat := none
  deferred : Option WarmCause := none
  queued : List (Nat × List Word) := []
  railFault : Bool := false
  watchdogAt : Option Nat := none
  coolSince : Option Nat := none
  epoch : Nat := 0
  beganUp : Nat := 0
  phaseUp : Nat := 0
  afterReply : Option (Nat × Word × WarmCause) := none
  coldPend : Bool := false
  perstPend : Bool := false
  retired : Option Nat := none
  deriving DecidableEq, Repr, Inhabited

/-! ## Management (19_management_power_maintenance.md) -/

/-- Where a maintenance activity stands. -/
inductive MaintPhase where
  | idle | pending | granted | running | suspended
  deriving DecidableEq, Repr, Inhabited

/-- A maintenance activity by ID (R687): release, due, level (0 normal, 1 urgent, 2 forced). -/
structure Activity where
  phase : MaintPhase := .idle
  release : Nat := 0
  due : Option Nat := none
  level : Nat := 0
  byHost : Bool := false
  escalated : Bool := false
  steps : Nat := 0
  repeatAt : Nat := 0
  deriving DecidableEq, Repr, Inhabited

/-- A towpath command whose data follows as KIND 0x04 messages (R674). -/
structure DataIn where
  seq : Word
  want : Nat
  got : List (Nat × Nat)
  deriving DecidableEq, Repr, Inhabited

/-- A towpath endpoint (R671 to R676). -/
structure Endpoint where
  eid : Option Nat := none
  events : List (List Word) := []
  seen : List Seen := []
  dataIn : List DataIn := []
  deriving DecidableEq, Repr, Inhabited

/-- Thermal, power, maintenance and towpath state. -/
structure Mgmt where
  sensors : List Int := []
  tj : Int := 0
  sensor : Nat := 0
  warn : Bool := false
  tripped : Bool := false
  thermtrip : Bool := false
  peak : Int := 0
  warnings : Word := 0
  hot : Table Nat := []
  avgW : Nat := 0
  peakW : Nat := 0
  acts : Table Activity := []
  busy : Word := 0
  forced : Word := 0
  selfRefresh : Bool := false
  exitAt : Option Nat := none
  i3c : Option Nat := none
  ibi : Bool := false
  ep0 : Endpoint := {}
  ep1 : Endpoint := {}
  deriving DecidableEq, Repr, Inhabited

/-! ## Census (08_locks.md) -/

/-- Where a census stands (08 "Shadow image", header word 0). -/
inductive CensusState where
  | idle | armed | latched | missed
  deriving DecidableEq, Repr, Inhabited

/-- The header's code of a census state. -/
def CensusState.code : CensusState → Nat
  | .idle => 0 | .armed => 1 | .latched => 2 | .missed => 3

/-- What the census header says of one census: STATE, ID, T and REFUSED. -/
structure CensusHead where
  state : CensusState := .idle
  id : Nat := 0
  t : Nat := 0
  refused : Word := 0
  deriving DecidableEq, Repr, Inhabited

/-- The census (R309 to R317): its header, the header to which a cancel goes back (R311), the time of the last latch (`none` since a
reset), the shadow image by word index, and the shadows of the counters to which the image gives no place: (block, offset) and value,
a block being a function's BAR0 or a pool's telemetry item. -/
structure Census where
  head : CensusHead := {}
  prev : CensusHead := {}
  latch : Option Nat := none
  shadow : WMem := {}
  apart : List ((Nat × Nat) × Word) := []
  deriving DecidableEq, Repr, Inhabited

/-! ## JTAG (20_package_and_electrical.md R719) -/

/-- The states of the IEEE 1149.1 TAP controller. -/
inductive Tap where
  | reset | idle | drSelect | drCapture | drShift | drExit1 | drPause | drExit2 | drUpdate
  | irSelect | irCapture | irShift | irExit1 | irPause | irExit2 | irUpdate
  deriving DecidableEq, Repr, Inhabited

/-- The TAP: its state, how many bits the shift state it is in has moved, and what TDO shows (`none`: hi-Z). -/
structure Jtag where
  tap : Tap := .reset
  moved : Nat := 0
  tdo : Option Bool := none
  deriving DecidableEq, Repr, Inhabited

/-! ## What the block sends out -/

/-- Everything that leaves the block: a log in order. -/
inductive Out where
  | completion (fn index : Nat) (words : List Word)
  | msix (fn vector : Nat)
  | record (fn index : Nat) (addr : Nat) (words : List Word) (payload : List Byte)
  | dmaWrite (fn addr : Nat) (bytes : List Byte)
  | dmaRead (fn addr bytes : Nat)
  | readData (fn : Nat) (value : DWord)
  | readBytes (bytes : List Byte)
  | crs (fn : Nat)
  | unsupported (fn : Nat)
  | link (l : Nat) (m : LinkMsg)
  | flits (l first : Nat) (fs : List Flit)
  | empties (l first n : Nat)
  | resent (l first : Nat) (fs : List Flit)
  | helloFail (l : Nat)
  | towReply (ep : Nat) (words : List Word)
  | towEvent (ep : Nat) (words : List Word)
  | towData (ep : Nat) (seq : Word) (offset : Nat) (bytes : List Byte)
  | mctp (ep : Nat) (bytes : List Byte)
  | inBand
  | txFrame (wharf : Nat) (frame : List (List Byte)) (dout fsync : List Bool)
  | timeOut (t : Nat)
  | heartbeatWire (level : Bool)
  | tdo (b : Option Bool)
  | barge (part weir link job bytes : Nat)
  deriving DecidableEq, Repr

end Sys2Proof.Machine
end

