-- ==== Sys2Proof/Machine/State.lean ====
section
/-! DEFINITION. The machine's state: everything the spec gives the Knarum, as plain data, with the queue of waiting
commands; its faults and refusals; the state right after reset. -/

namespace Sys2Proof.Machine

/-! ## Commands that wait for something (R24, R546) -/

/-- A change that a chunk commit puts in force (R23, R563). -/
inductive Change where
  | openRow (index : Nat)
  | pause (index : Nat)
  | resume (index : Nat)
  | close (index endSample : Nat)
  | bind (index : Nat) (b : Option Binding)
  | cls (bulk : Bool)
  | steer (tensor : Nat) (s : Steer)
  | weir (part weir link rate burst : Nat)
  | rate (r : Nat)
  deriving DecidableEq, Repr

/-- What a command in progress waits for. `commit job cohort c`: the next commit of that cohort (`none`: of any
cohort of the job, or of any job for a device change). -/
inductive Waiting where
  | commit (part : Option Nat) (job cohort : Option Nat) (c : Change)
  | switch (part : Nat)
  | hold (part : Nat)
  | sweep (part model : Nat)
  | links (named : List Nat)
  | mirror
  | handover
  | scan (core : Nat)
  | wharfStop (named : List Nat)
  | wharfStart (named : List Nat)
  | exit (what : Nat)
  | start (job : Nat)
  | data
  deriving DecidableEq, Repr

/-- A command in progress: its packet, what it waits for, since when. -/
structure Wait where
  cmd : Cmd
  kind : Waiting
  since : Nat
  deriving DecidableEq, Repr

/-! ## Units of the state that only the device holds -/

/-- The check registers and check table of a partition (16 "Registers", R574); `skips` are the checks, as (job, cohort, ID), whose block is
not sampled. -/
structure PartCheck where
  rate : Nat := 2
  passed : Word := 0
  mismatch : Word := 0
  late : Word := 0
  checks : List Check := []
  skips : List (Nat × Nat × Nat) := []
  deriving DecidableEq, Repr, Inhabited

/-- A weight range of a job's shard with its segment (R374, R375). -/
structure WeightRange where
  job : Nat
  part : Nat
  first : Nat
  count : Nat
  deriving DecidableEq, Repr, Inhabited

/-- A model loaded into a partition (MODEL_INSTALL action 0), the segments that the sweep under way has swept and found bad, and
those that the last sweep found bad, with the schedule time at which it ended (R376, MODEL_DIGEST). -/
structure Loaded where
  part : Nat
  model : Nat
  first : Nat
  sweeping : Bool := false
  swept : List Nat := []
  bad : List Nat := []
  last : List Nat := []
  ended : Nat := 0
  deriving DecidableEq, Repr, Inhabited

/-- The two reduced spans of a stream, each by extent and generation (R272). -/
structure KvSpans where
  top : Nat × Nat
  ring : Nat × Nat
  deriving DecidableEq, Repr, Inhabited

/-- The pool of one KV tensor of a job (R264 to R266): the free list, the generation of each extent, counters, by row when a stream
entered REDUCED and its reduced spans (R272, R273), and the backed spans that wait for their rebuild, as (row, span) (R267). -/
structure KvPool where
  free : List Nat := []
  gens : Table Nat := []
  drops : Word := 0
  rebuilds : Word := 0
  reduced : Word := 0
  since : Table Nat := []
  spans : OTable KvSpans := []
  toRebuild : List (Nat × Nat) := []
  deriving DecidableEq, Repr, Inhabited

/-- A slot of a KV summary (R269): a position, its score, its INT4 codes and scales. A slot without data is empty. -/
structure KvSlot where
  pos : Nat := 0
  score : Nat := 0
  data : List Byte := []
  deriving DecidableEq, Repr, Inhabited

/-- A retained input (R268): the intake that produced positions `first` to `last − 1`. -/
structure KvInput where
  first : Nat
  last : Nat
  bytes : List Byte
  deriving DecidableEq, Repr, Inhabited

/-- Telemetry of one job: deadline misses (R36), chunks committed, chunks re-run; the copies made at commits. -/
structure JobTele where
  misses : Word := 0
  committed : Word := 0
  reruns : Word := 0
  copiedAt : Nat := 0
  steerCopy : Table (List Word) := []
  poolCopy : Table (List Word) := []
  deriving DecidableEq, Repr, Inhabited

/-- The saving of one tensor's offsets (R167; key `steerKey`, model digest and tensor ID): when they were last saved, and the offsets
that wait for the 10 minutes to end. It stands apart from the jobs. -/
structure SteerSave where
  savedAt : Option Nat := none
  waiting : Option (List Int) := none
  deriving DecidableEq, Repr, Inhabited

/-- What the lockkeeper keeps of a steered tensor (key job × 128 + tensor): whether the model scales come back at the next commit of
cohort 0, in the chip's own records and in its twin's (R168), and the last counted window. -/
structure SteerRun where
  modelScales : Bool := false
  twinScales : Bool := false
  rowsteps : Nat := 0
  rowsSeen : Nat := 0
  topClips : Nat := 0
  deriving DecidableEq, Repr, Inhabited

/-! ## The state -/

/-- The state of the block. `freeing` lists killed jobs whose pounds wait for the job's last credit (R328). `kvSlots` holds the slots of
the streams' KV summaries (key `slotKey`, R269), `kvSent` by stream the slots (tensor, slot) that changed since the last acknowledged
mirror (R271), `kvInputs` the retention rings (key index × 16 + tensor, R268). Tables are keyed by the number of the thing: core 0 to 23, partition 0 to 11, job 0 to
95, function 0 to 12, stream index 0 to 1,023, stack 0 to 3, link 0 to 35, wharf 0 to 9, reference 0 to 1. -/
structure State where
  time : TimeSt := {}
  coreMap : List Word := [0x001AC688, 0x001AC688, 0x001AC688, 0x001AC688]
  cores : Table CoreSt := []
  health : Table Health := []
  parts : Table Part := []
  checks : Table PartCheck := []
  jobs : Table Job := []
  tele : Table JobTele := []
  steering : Table SteerRun := []
  saves : Table SteerSave := []
  pools : Table KvPool := []
  kvSlots : Table KvSlot := []
  kvSent : Table (List (Nat × Nat)) := []
  kvInputs : Table (List KvInput) := []
  fns : Table FnBlock := []
  numVfs : Nat := 0
  vfEnable : Bool := false
  msixOn : Table Bool := []
  msixHold : Table Bool := []
  msixPend : Table Bool := []
  config : Table Word := []
  msixRam : Table Word := []
  streams : OTable Stream := []
  gens : Table Nat := []
  accepted : List Cmd := []
  waits : List Wait := []
  hbmStacks : Table Stack := []
  hbm : Mem := {}
  hbmTags : Table Tag := []
  sluice : Table (List (List Byte)) := []
  ranges : List WeightRange := []
  loaded : List Loaded := []
  links : Table LinkSt := []
  route : Option RouteImage := none
  subst : Table (Option Nat) := []
  pair : Pair := {}
  wharves : Table Wharf := []
  refs : Table Reference := []
  slipSec : Nat := 0
  integ : Integ := {}
  flash : Flash := {}
  rst : Reset := {}
  mgmt : Mgmt := {}
  census : Census := {}
  jtag : Jtag := {}
  freeing : List Nat := []
  free : Nat := 0
  out : List Out := []
  pending : List Instr := []
  deriving DecidableEq, Repr

/-! ## Faults and refusals -/

/-- The model has no fault: the spec reports every fault as a change of state (an event, a kill), so no command
ends a run. -/
inductive Fault where
  /-- Raised by nothing: the type needs a constructor. Safe. -/
  | inconsistent
  deriving DecidableEq, Repr

/-- Why a command is not run by the model. -/
inductive Refusal where
  /-- Raised by an arm of Machine/Dispatch.lean whose command has no meaning yet. Safe: the model stops where the
  hardware goes on. -/
  | notModelled (mnemonic : String)
  deriving DecidableEq, Repr

/-- What a command answers. -/
abbrev Outcome := Host.Outcome State Fault Refusal

/-- Every field at its reset value (INVENTORY.md '## State'): POR_N and PERST_N have just been deasserted and the
cold bring-up stands at the start of phase 0 (R640, R641). -/
def State.reset : State := {}

end Sys2Proof.Machine
end

