-- ==== Sys2Proof/Machine/Ops.lean ====
section
/-! DEFINITION. Named operations over the state: the accessors of its tables, outputs, the completion queues
(R512, R539), events (R560, R561, R676), replies (R541, R546), signature records (R603), core health (R587). -/

namespace Sys2Proof.Machine

/-! ## Tables by number -/

def State.core (s : State) (c : Nat) : CoreSt := Table.look {} s.cores c
def State.setCore (s : State) (c : Nat) (v : CoreSt) : State := { s with cores := Table.put {} s.cores c v }
def State.modCore (s : State) (c : Nat) (f : CoreSt → CoreSt) : State := s.setCore c (f (s.core c))
def State.part (s : State) (p : Nat) : Part := Table.look {} s.parts p
def State.setPart (s : State) (p : Nat) (v : Part) : State := { s with parts := Table.put {} s.parts p v }
def State.modPart (s : State) (p : Nat) (f : Part → Part) : State := s.setPart p (f (s.part p))
def State.check (s : State) (p : Nat) : PartCheck := Table.look {} s.checks p
def State.setCheck (s : State) (p : Nat) (v : PartCheck) : State := { s with checks := Table.put {} s.checks p v }
def State.modCheck (s : State) (p : Nat) (f : PartCheck → PartCheck) : State := s.setCheck p (f (s.check p))
def State.job (s : State) (j : Nat) : Job := Table.look {} s.jobs j
def State.setJob (s : State) (j : Nat) (v : Job) : State := { s with jobs := Table.put {} s.jobs j v }
def State.modJob (s : State) (j : Nat) (f : Job → Job) : State := s.setJob j (f (s.job j))
def State.teleOf (s : State) (j : Nat) : JobTele := Table.look {} s.tele j
def State.modTele (s : State) (j : Nat) (f : JobTele → JobTele) : State :=
  { s with tele := Table.upd {} s.tele j f }
def State.fn (s : State) (n : Nat) : FnBlock := Table.look {} s.fns n
def State.setFn (s : State) (n : Nat) (v : FnBlock) : State := { s with fns := Table.put {} s.fns n v }
def State.modFn (s : State) (n : Nat) (f : FnBlock → FnBlock) : State := s.setFn n (f (s.fn n))
def State.link (s : State) (l : Nat) : LinkSt := Table.look {} s.links l
def State.setLink (s : State) (l : Nat) (v : LinkSt) : State := { s with links := Table.put {} s.links l v }
def State.modLink (s : State) (l : Nat) (f : LinkSt → LinkSt) : State := s.setLink l (f (s.link l))
def State.wharf (s : State) (w : Nat) : Wharf := Table.look {} s.wharves w
def State.setWharf (s : State) (w : Nat) (v : Wharf) : State := { s with wharves := Table.put {} s.wharves w v }
def State.modWharf (s : State) (w : Nat) (f : Wharf → Wharf) : State := s.setWharf w (f (s.wharf w))
def State.stack (s : State) (k : Nat) : Stack := Table.look {} s.hbmStacks k
def State.modStack (s : State) (k : Nat) (f : Stack → Stack) : State := { s with hbmStacks := Table.upd {} s.hbmStacks k f }
def State.healthOf (s : State) (c : Nat) : Health := Table.look {} s.health c
def State.modHealth (s : State) (c : Nat) (f : Health → Health) : State := { s with health := Table.upd {} s.health c f }
def State.ref (s : State) (r : Nat) : Reference := Table.look {} s.refs r
def State.modRef (s : State) (r : Nat) (f : Reference → Reference) : State := { s with refs := Table.upd {} s.refs r f }
def State.stream (s : State) (i : Nat) : Option Stream := OTable.at? s.streams i
def State.setStream (s : State) (i : Nat) (v : Option Stream) : State := { s with streams := Table.put none s.streams i v }
def State.modStream (s : State) (i : Nat) (f : Stream → Stream) : State := { s with streams := OTable.modify s.streams i f }
def State.act (s : State) (id : Nat) : Activity := Table.look {} s.mgmt.acts id
def State.modAct (s : State) (id : Nat) (f : Activity → Activity) : State :=
  { s with mgmt := { s.mgmt with acts := Table.upd {} s.mgmt.acts id f } }
def State.pool (s : State) (key : Nat) : KvPool := Table.look {} s.pools key
def State.modPool (s : State) (key : Nat) (f : KvPool → KvPool) : State := { s with pools := Table.upd {} s.pools key f }

/-- Whether an option equals a value. -/
def optIs (o : Option Nat) (n : Nat) : Bool := match o with | some v => v == n | none => false

/-- Fold a state change over a list. -/
def State.each {α : Type} (s : State) (l : List α) (f : State → α → State) : State := l.foldl f s

/-- The queue of a core and its head. -/
def CoreSt.queue (c : CoreSt) (q : Nat) : List QEntry := Table.look [] c.queues q
def CoreSt.setQueue (c : CoreSt) (q : Nat) (es : List QEntry) : CoreSt := { c with queues := Table.put [] c.queues q es }
def CoreSt.lock (c : CoreSt) (i : Nat) : Lock := Table.look {} c.locks i
def CoreSt.setLock (c : CoreSt) (i : Nat) (l : Lock) : CoreSt := { c with locks := Table.put {} c.locks i l }

/-! ## Numbers (R21, R318) -/

def partOfCore (c : Nat) : Nat := c / 2
def partOfJob (j : Nat) : Nat := j / 8
/-- The two logical cores of a partition. -/
def coresOf (p : Nat) : List Nat := [2 * p, 2 * p + 1]
/-- The eight job IDs of a partition. -/
def jobsOf (p : Nat) : List Nat := (List.range 8).map (8 * p + ·)
/-- Jobs in a given state. -/
def State.jobsIn (s : State) (p : Nat) (st : JobState) : List Nat := (jobsOf p).filter (fun j => (s.job j).state == st)
/-- RUNNING or PARKED jobs of a partition. -/
def State.live (s : State) (p : Nat) : List Nat :=
  (jobsOf p).filter (fun j => (s.job j).state == .running || (s.job j).state == .parked)
/-- `CHK_CFG.RATE_MAX`: the lowest RATE_MAX of the RUNNING and PARKED jobs. -/
def State.rateMax (s : State) (p : Nat) : Nat := (s.live p).foldl (fun a j => min a (s.job j).image.rateMax) 4
/-- Jobs of the chip that are RUNNING or PARKED. -/
def State.anyLive (s : State) : Bool := (List.range 12).any (fun p => !(s.live p).isEmpty)
/-- The row of a logical core (R17). -/
def coreRow (c : Nat) : Nat := c / 6

/-! ## Outputs and free values -/

def State.emit (s : State) (o : Out) : State := { s with out := s.out ++ [o] }
def State.emits (s : State) (os : List Out) : State := { s with out := s.out ++ os }
/-- Draw the number of a fresh free value. -/
def State.draw (s : State) : Nat × State := (s.free, { s with free := s.free + 1 })

/-- Contents of memories lost: a fresh epoch. -/
def State.newEpoch (s : State) : Nat × State :=
  (s.rst.epoch + 1, { s with rst := { s.rst with epoch := s.rst.epoch + 1 } })

/-- The chip can reach the host's rings: it is READY (or in maintenance-only mode), not fenced, not quiescing (R441, R658). -/
def State.ringsOpen (s : State) : Bool :=
  (s.rst.ready || s.rst.stop == 1) && s.rst.quiesce.isNone && s.pair.state != .fenced && !s.rst.railFault

/-- FAULT_N is asserted (R669). -/
def State.faultN (s : State) : Bool :=
  !s.rst.ready || s.rst.thermHold || s.rst.quiesce.isSome || s.pair.state == .fenced || s.rst.railFault

/-- ALERT_N is asserted (R676). -/
def State.alertN (s : State) : Bool := !s.mgmt.ep0.events.isEmpty || !s.mgmt.ep1.events.isEmpty

/-- Quiet time in nanoseconds (R438). -/
def State.quiet (s : State) : Nat := s.time.up - s.pair.aliveAt

/-! ## Completion queues (R512) -/

/-- Entries of a ring of 2^log2 that may still be written. -/
def ringRoom (log2 head next : Nat) : Nat := (head + 2 ^ log2 - next % 2 ^ log2 - 1) % 2 ^ log2

/-- Entries that a function's completion ring can take now. -/
def FnBlock.room (f : FnBlock) : Nat := if f.cqEn then ringRoom f.cqLog2.toNat f.cqHead f.cqNext else 0

/-- Drop the oldest event among those beyond the ring's room when more than 64 of them wait (R512). -/
def FnBlock.trim (f : FnBlock) : FnBlock :=
  let late := f.waiting.drop f.room
  if 64 < late.countP (·.isEvent) then
    { f with waiting := f.waiting.take f.room ++ late.eraseP (·.isEvent), evtLost := satAdd f.evtLost 1 }
  else f

/-- Append a reply or an event. -/
def FnBlock.post (f : FnBlock) (i : CqItem) : FnBlock := FnBlock.trim { f with waiting := f.waiting ++ [i] }

/-- Words 0 to 14 of a completion entry from words 0 to 13 (R539). -/
def withCrc (ws : List Word) : List Word := ws ++ [crc32c (wordsToBytes ws)]

/-- Write waiting entries into the ring, at most `n`; answers the block and the entries written. -/
def FnBlock.write (f : FnBlock) : Nat → FnBlock × List (Nat × List Word)
  | 0 => (f, [])
  | n + 1 =>
    match f.waiting with
    | [] => (f, [])
    | i :: rest =>
      if f.room = 0 then (f, [])
      else
        let last := f.cqNext + 1 == 2 ^ f.cqLog2.toNat
        let f' := { f with waiting := rest, cqNext := if last then 0 else f.cqNext + 1,
                           cqPhase := if last then !f.cqPhase else f.cqPhase }
        let r := FnBlock.write f' n
        (r.1, (f.cqNext, i.words ++ [pack [(b2n f.cqPhase, 31)]]) :: r.2)

/-- The vector control word's mask bit of an MSI-X vector, and the function mask. The table stores a vector control word with bit 0
inverted: it is 1 at reset. -/
def State.msixMasked (s : State) (fn vector : Nat) : Bool :=
  (Table.look 0 s.msixRam (fn * 256 + 4 * vector + 3)).getLsbD 0 == false || Table.look false s.msixHold fn

/-- A vector of a function fires once MSI-X is enabled (R733); a masked vector is pending. -/
def State.msix (s : State) (fn vector : Nat) : State :=
  if !Table.look false s.msixOn fn then s
  else if s.msixMasked fn vector then { s with msixPend := Table.put false s.msixPend (fn * 64 + vector) true }
  else s.emit (.msix fn vector)

/-- Pending vectors of a function that are no longer masked fire. -/
def State.msixRelease (s : State) (fn : Nat) : State :=
  s.each (List.range 64) (fun s v =>
    if Table.look false s.msixPend (fn * 64 + v) && Table.look false s.msixOn fn && !s.msixMasked fn v then
      { s with msixPend := Table.put false s.msixPend (fn * 64 + v) false }.emit (.msix fn v)
    else s)

/-- Write a function's waiting replies and events as far as there is room; vector 0 fires after the batch (R512). -/
def State.drainCq (s : State) (fn : Nat) : State :=
  if s.ringsOpen then
    let r := (s.fn fn).write (s.fn fn).waiting.length
    if r.2 = [] then s
    else ((s.setFn fn r.1).emits (r.2.map (fun e => .completion fn e.1 e.2))).msix fn 0
  else s

/-! ## Events (R560, R561) -/

/-- Words 0 to 14 of an event. -/
def eventWords (code part job status detail time : Nat) (evs : List Word) : List Word :=
  withCrc ([pack [(code, 16), (part, 8), (2, 0)], 0, pack [(status, 16), (detail % 65536, 0)], BitVec.ofNat 32 job,
    lo32 time, hi32 time] ++ (evs ++ List.replicate 8 0).take 8)

/-- Events that the towpath copies (R676). -/
def towpathEvent (code : Nat) : Bool := code == Ev.fault || code == Ev.thermal || code == Ev.takeover || code == Ev.maintEscalate

/-- Add an event to an endpoint's queue of 64; the oldest goes when it is full. -/
def Endpoint.post (e : Endpoint) (ws : List Word) : Endpoint :=
  if e.eid.isNone then e else { e with events := lastN 64 (e.events ++ [ws]) }

/-- Copy an event to the towpath endpoints; the I3C target raises an in-band interrupt (R672, R676). -/
def State.towpathCopy (s : State) (ws : List Word) : State :=
  let s' := { s with mgmt := { s.mgmt with ep0 := s.mgmt.ep0.post ws, ep1 := s.mgmt.ep1.post ws } }
  if s.mgmt.ibi && s.mgmt.ep0.eid.isSome then s'.emit .inBand else s'

/-- Deliver an event's words to the rings of the named functions and to the towpath. Events of bring-up wait for
READY (R653). -/
def State.deliver (s : State) (code : Nat) (fns : List Nat) (ws : List Word) : State :=
  if !(s.rst.ready || s.rst.stop == 1) then
    { s with rst := { s.rst with queued := s.rst.queued ++ (fns.map (fun f => (code * 16 + f, ws))) } }
  else
    let s1 := if s.pair.state == .fenced ∨ s.rst.quiesce.isSome then s
      else s.each fns (fun s f => s.modFn f (fun b => b.post { isEvent := true, words := ws }))
    if towpathEvent code then s1.towpathCopy ws else s1

/-- Functions that receive an event: PF0, and the VF of the partition it concerns. -/
def State.listeners (s : State) (part : Option Nat) : List Nat :=
  match part with
  | some p => if s.vfEnable then [0, p + 1] else [0]
  | none => [0]

/-- Send an event (R560, R561). -/
def State.event (s : State) (code : Nat) (part job : Option Nat) (status detail : Nat) (evs : List Word) : State :=
  s.deliver code (s.listeners part)
    (eventWords code (part.getD 0xFF) (job.getD 0xFFFFFFFF) status detail s.time.now evs)

/-! ## Signature records (R603, R604) -/

/-- The site (7 × row + column) of a logical core (R17). -/
def State.siteOf (s : State) (c : Nat) : Nat :=
  7 * coreRow c + bits (s.coreMap.getD (coreRow c) 0).toNat (3 * (c % 6)) 3

/-- Version of the running firmware image. -/
def Flash.version (f : Flash) : Word := ((if f.fwImage = 0 then f.fwA else f.fwB).map (·.version)).getD 0

/-- Write a signature record; the RAM holds the newest 4,096. -/
def State.signature (s : State) (cls cause : Nat) (core : Option Nat) (unitNo : Nat) (detail : List Nat)
    (job : Option Nat) (chunk : Nat × Nat) : State :=
  let r : SigRec := {
    index := s.integ.sigNext.toNat, time := s.time.now, cls := cls, cause := cause, core := core,
    unit := unitNo, detail := detail, health := (core.map (fun c => (s.healthOf c).state)).getD 0,
    chip := s.time.chip, fw := s.flash.version.toNat, patterns := s.integ.patternVersion.toNat, job := job, chunk := chunk,
    tj := s.mgmt.tj, site := s.siteOf (core.getD 0), boots := s.flash.boots, draw := s.free }
  { s with free := s.free + 1,
           integ := { s.integ with held := lastN 4096 (s.integ.held ++ [r]), sigNext := s.integ.sigNext + 1 } }

/-! ## Core health (R587 to R589) -/

/-- Nanoseconds in 24 hours. -/
def dayNs : Nat := 86400000000000

/-- Note that a ledger entry changed; it is written at once or within 60 s (R625). -/
def State.ledgerChange (s : State) (f : Ledger → Ledger) : State :=
  { s with flash := { s.flash with pending := f s.flash.pending,
                                   pendingSince := some (s.flash.pendingSince.getD s.time.up) } }

/-! ## Flash blocks (R614 to R617)

A physical block's number is die × 11,264 + block; block 0 of a die is its anchor. -/

/-- DESIGN CHOICE: where manufacture lays a logical block. -/
def madeAt (n : Nat) : Nat := n % 2 * 11264 + 1 + n / 2

/-- The physical block of a logical block. -/
def Flash.phys (f : Flash) (n : Nat) : Nat :=
  let r := Table.look 0 f.remaps n
  if r = 0 then madeAt n else r

/-- A block that the bad-block table lists. -/
def Flash.isBad (f : Flash) (p : Nat) : Bool := f.factoryBad.contains p || f.grown.any (fun g => g.1 == p)

/-- A physical block that holds a logical one. -/
def Flash.inUse (f : Flash) (p : Nat) : Bool :=
  let k := p % 11264
  f.remaps.any (fun r => r.2 == p) || (decide (1 ≤ k) && decide (k ≤ 8192) && Table.look 0 f.remaps (2 * (k - 1) + p / 11264) == 0)

/-- A free block of the reserve. -/
def Flash.isFree (f : Flash) (p : Nat) : Bool := p % 11264 != 0 && !f.isBad p && !f.inUse p

/-- `FLASH_STATUS.RESERVE`. -/
def Flash.reserve (f : Flash) : Nat := 6142 - f.factoryBad.length - f.grown.length

/-- The free block with the lowest erase count (R616). -/
def Flash.lowestFree (f : Flash) : Option Nat :=
  ((List.range 22528).foldl (fun (b : Option (Nat × Nat)) p =>
    if !f.isFree p then b
    else match b with
      | none => some (p, Table.look 0 f.erases p)
      | some q => if Table.look 0 f.erases p < q.2 then some (p, Table.look 0 f.erases p) else some q) none).map (·.1)

/-- A grown bad block with its cause (1 program, 2 erase, 3 wear-out, 4 read); the lists hold up to 4,096 (R614, R617). -/
def Flash.addBad (f : Flash) (p cause time : Nat) : Flash :=
  { f with grown := (f.grown ++ [(p, cause, time)]).take 4096, bad := satAdd f.bad 1 }

/-- An erase for a write of a logical block (R616): the free block with the lowest erase count takes it; one that reaches 30,000
erases becomes bad, and the next is taken (R617). -/
def Flash.place (f : Flash) (n time : Nat) : Nat → Flash
  | 0 => f
  | k + 1 =>
    match f.lowestFree with
    | none => f
    | some p =>
      let c := Table.look 0 f.erases p + 1
      let f1 := { f with erases := Table.put 0 f.erases p c }
      if 30000 ≤ c then (f1.addBad p 3 time).place n time k else { f1 with remaps := Table.put 0 f1.remaps n p }

/-- Logical blocks are written anew. -/
def State.rewriteBlocks (s : State) (first count : Nat) : State :=
  { s with flash := (List.range count).foldl (fun f i => f.place (first + i) s.time.now 4) s.flash }

/-- A ledger write (R627): the pending image goes into the next slot of the bank that does not hold the current image, which
is erased first when it is full. After the factory image, bank A is next. -/
def State.writeLedger (s : State) : State :=
  let f := s.flash
  let toA := f.factory || f.bank == 1
  let img : Option (Word × Ledger) := some (f.seq + 1, f.pending)
  let full := (if toA then f.bankA else f.bankB).length = 256
  let f0 := if full then (s.rewriteBlocks (if toA then 32 else 48) 16).flash else f
  let f1 : Flash := { f0 with
    seq := f.seq + 1, ledger := f.pending, pendingSince := none, factory := false, bank := if toA then 0 else 1 }
  { s with flash := if toA then { f1 with bankA := (if full then [] else f.bankA) ++ [img] }
                    else { f1 with bankB := (if full then [] else f.bankB) ++ [img] } }

/-- A ledger change of a type that is written at once (R625). -/
def State.ledgerNow (s : State) (f : Ledger → Ledger) : State := (s.ledgerChange f).writeLedger

/-- A core's health becomes at least `state` (1 SUSPECT, 2 RETIRING) for the event whose SOURCE bit is `bit` (6: an event without
a bit); the ledger records it. -/
def State.markHealth (s : State) (c bit state : Nat) : State :=
  let h := s.healthOf c
  let st := max h.state state
  let src := if bitAt h.source bit ∨ 6 ≤ bit then h.source else h.source + 2 ^ bit
  (s.modHealth c (fun h => { h with state := st, source := src, passes := if h.state = st then h.passes else 0 })).ledgerNow
    (fun l => { l with health := Table.put (0, 0) l.health c (st, src) })

/-- Corrected errors of a core's array rows (R85): counted, with their times of the last 24 h. Bank 64 is the tag array. -/
def Spad.corrected (sp : Spad) (up : Nat) (es : List (Nat × Nat)) : Spad :=
  es.foldl (fun sp e =>
    let key := e.1 * 1024 + e.2
    { sp with
      ceCount := satAdd sp.ceCount 1,
      rowCe := Table.upd [] sp.rowCe key (fun ts => (ts.filter (fun t => decide (up < t + dayNs))) ++ [up]) }) sp
def State.spadCorrected (s : State) (c : Nat) (es : List (Nat × Nat)) : State :=
  s.modCore c (fun k => { k with spad := k.spad.corrected s.time.up es })

/-! ## Faults -/

/-- Core, link and stream handle of an `EVT_FAULT` (R561). -/
structure FaultAt where
  core : Option Nat := none
  link : Option Nat := none
  handle : Word := 0
  deriving DecidableEq, Repr

/-- EV0 and EV1 of an `EVT_FAULT`. -/
def FaultAt.words (a : FaultAt) : List Word := [pack [(a.core.getD 0x1F, 0), (a.link.getD 0x3F, 8)], a.handle]

/-- The class of the signature record that a cause leaves, with its unit (R603, R604). -/
def sigClass (cause : Nat) : Option (Nat × Nat) :=
  if cause = Cause.blockCrc then some (6, 5) else if cause = Cause.hbmUe then some (7, 7)
  else if cause = Cause.spadUe then some (7, 5) else if cause = Cause.deadlineMiss then some (9, 10)
  else if cause = Cause.digestMismatch then some (10, 7)
  else if cause = Cause.coreRetire ∨ cause = Cause.chipRetire then some (11, 10) else none

/-- The third `BLOCK_CRC` within 24 h in reads issued by a core makes it SUSPECT (R587). -/
def State.noteCrc (s : State) (core : Option Nat) : State :=
  match core with
  | none => s
  | some c =>
    let recent := ((s.healthOf c).crcAt.filter (fun t => decide (s.time.up < t + dayNs))) ++ [s.time.up]
    let s1 := s.modHealth c (fun h => { h with crcAt := recent })
    if 3 ≤ recent.length then s1.markHealth c 3 1 else s1

/-- Report `EVT_FAULT` with its cause (R561), leaving a signature record where R603 asks for one. -/
def State.faultEvent (s : State) (cause : Nat) (part job : Option Nat) (detail : Nat) (a : FaultAt) : State :=
  let s1 := s.event Ev.fault part job cause detail a.words
  let s2 := if cause = Cause.blockCrc then s1.noteCrc a.core else s1
  match sigClass cause with
  | some (k, u) => s2.signature k cause a.core u [detail] job (0, 0)
  | none => s2

/-! ## Replies (R539, R541) -/

/-- Words 0 to 13 of a reply. -/
def replyWords (kind : Nat) (c : Cmd) (status detail : Nat) (res : List Word) : List Word :=
  [pack [(c.opcode, 16), (c.partition, 8), (kind, 0)], c.seq, pack [(status, 16), (detail % 65536, 0)],
    BitVec.ofNat 32 c.job, c.tagLo, c.tagHi] ++ (res ++ List.replicate 8 0).take 8

/-- Remember the reply of a packet (R535). -/
def rememberReply (seen : List Seen) (c : Cmd) (ws : List Word) : List Seen :=
  seen.map (fun e => if e.seq = c.seq ∧ e.crc = c.crc then { e with reply := some ws } else e)

/-- The endpoint of a towpath transport. -/
def Mgmt.ep (m : Mgmt) (e : Nat) : Endpoint := if e = 0 then m.ep0 else m.ep1
def Mgmt.modEp (m : Mgmt) (e : Nat) (f : Endpoint → Endpoint) : Mgmt :=
  if e = 0 then { m with ep0 := f m.ep0 } else { m with ep1 := f m.ep1 }

/-- Answer a command on the mailbox that carried it; `BUSY_MAINT` replies are counted. -/
def State.reply (s : State) (c : Cmd) (status detail : Nat) (res : List Word) : State :=
  let ws := replyWords 1 c status detail res
  let s1 := if status = St.busyMaint then { s with mgmt := { s.mgmt with busy := satAdd s.mgmt.busy 1 } } else s
  match c.origin with
  | .ring fn => s1.modFn fn (fun f => { (f.post { isEvent := false, words := withCrc ws }) with seen := rememberReply f.seen c ws })
  | .tow ep => { s1.emit (.towReply ep (withCrc ws)) with
      mgmt := s1.mgmt.modEp ep (fun e => { e with seen := rememberReply e.seen c ws }) }

/-- Answer every command in progress that a test selects, dropping it. -/
def State.answerWaits (s : State) (sel : Wait → Bool) (ans : Wait → Nat × Nat × List Word) : State :=
  { s with waits := s.waits.filter (fun w => !sel w) }.each (s.waits.filter sel)
    (fun s w => s.reply w.cmd (ans w).1 (ans w).2.1 (ans w).2.2)

/-- Put a command in progress. -/
def State.await (s : State) (c : Cmd) (k : Waiting) : State :=
  { s with waits := s.waits ++ [{ cmd := c, kind := k, since := s.time.up }] }

end Sys2Proof.Machine
end

