-- ==== Sys2Proof/Machine/FlashOps.lean ====
section
/-! DEFINITION. Flash operations shared by many steps (17_flash_and_ledger.md): grown bad blocks (R617), uncorrectable reads
(R619), the choice of the ledger image (R628) and of the firmware image (R636), a flash's view after a reset. -/

namespace Sys2Proof.Machine

/-- A logical block's physical block becomes a grown bad block; its data goes to a free block (R617). -/
def State.growBad (s : State) (n cause : Nat) : State :=
  { s with flash := (s.flash.addBad (s.flash.phys n) cause s.time.now).place n s.time.now 4 }

/-- The models with the 4 KiB unit of the model store at which each begins, in the order of the store. -/
def placedModels : Nat → List StoredModel → List (Nat × StoredModel)
  | _, [] => []
  | at_, m :: ms => (at_, m) :: placedModels (at_ + m.pkg.len4k) ms

/-- The model whose package lies on a page of the model store is damaged. -/
def damageModels (unit_ : Nat) (ms : List StoredModel) : List StoredModel :=
  (placedModels 0 ms).map (fun e =>
    if e.1 < unit_ + 4 ∧ unit_ < e.1 + e.2.pkg.len4k then { e.2 with damaged := true } else e.2)

/-- The data on an uncorrectable page is lost (R611, R619). Signature records take 16 to a page. -/
def State.losePage (s : State) (block page : Nat) : State :=
  let f := s.flash
  if block < 16 then { s with flash := { f with fwA := none } }
  else if block < 32 then { s with flash := { f with fwB := none } }
  else if block < 48 then { s with flash := { f with bankA := f.bankA.set (((block - 32) * 256 + page) / 16) none } }
  else if block < 64 then { s with flash := { f with bankB := f.bankB.set (((block - 48) * 256 + page) / 16) none } }
  else if block < 576 then { s with integ := { s.integ with pkg := none, libValid := false } }
  else if block < 640 then
    let p := (block - 576) * 256 + page
    { s with integ := { s.integ with ring := s.integ.ring.filter (fun r => r.index / 16 % 16384 != p) } }
  else { s with flash := { f with models := damageModels (((block - 640) * 256 + page) * 4) f.models } }

/-- An uncorrectable read (R617, R619): counted and reported; what was on the page is lost, and the block is bad. A lost pattern
library is reported as `PATTERN_INVALID` too. -/
def State.flashUe (s : State) (block page : Nat) : State :=
  let s1 := s.losePage block page
  let s2 := { s1 with flash := { s1.flash with ue := satAdd s1.flash.ue 1 } }
  let s3 := (s2.growBad block 4).faultEvent Cause.flashUe none none 0 {}
  if 64 ≤ block ∧ block < 576 then s3.faultEvent Cause.patternInvalid none none 0 {} else s3

/-! ## Recovery (R628) -/

/-- `a` is newer than `b`, modulo 2^32. -/
def newer (a b : Word) : Bool := a != b && decide ((a - b).toNat < 2 ^ 31)

/-- The last valid image of a bank. -/
def lastValid (bank : List (Option (Word × Ledger))) : Option (Word × Ledger) := (bank.filterMap id).getLast?

/-- The current image: its bank (none: the factory image), SEQ and content. -/
def selectImage (bankA bankB : List (Option (Word × Ledger))) : Option Nat × Word × Ledger :=
  match lastValid bankA, lastValid bankB with
  | none, none => (none, 0, {})
  | some a, none => (some 0, a.1, a.2)
  | none, some b => (some 1, b.1, b.2)
  | some a, some b => if newer b.1 a.1 then (some 1, b.1, b.2) else (some 0, a.1, a.2)

/-! ## Firmware images (R632, R633, R636) -/

/-- An image that R633 accepts. -/
def FwImage.valid (i : FwImage) (svn : Nat) : Bool :=
  i.magic == 0x57464B4F && i.device == 0x3612 && i.keyOk && i.sigOk && decide (svn ≤ i.svn)

/-- Image 0 (A) or 1 (B). -/
def Flash.image (f : Flash) (i : Nat) : Option FwImage := if i = 0 then f.fwA else f.fwB
def Flash.setImage (f : Flash) (i : Nat) (v : Option FwImage) : Flash := if i = 0 then { f with fwA := v } else { f with fwB := v }
/-- Whether an image is valid. -/
def Flash.valid (f : Flash) (i : Nat) : Bool :=
  match f.image i with
  | some v => v.valid f.svn
  | none => false

/-- The image that the boot ROM boots, and whether it is PENDING (R636). -/
def Flash.boot (f : Flash) : Option (Nat × Bool) :=
  let act := f.ledger.fwActive
  match f.ledger.fwPending with
  | some p =>
    if f.valid p ∧ f.bootTries < 2 then some (p, true)
    else if f.valid act then some (act, false) else if f.valid (1 - act) then some (1 - act, false) else none
  | none => if f.valid act then some (act, false) else if f.valid (1 - act) then some (1 - act, false) else none

/-! ## Resets (R668) -/

/-- What a reset leaves of the flash unit: the dies, the fuses and, over a warm reset, the always-on fields. -/
def Flash.afterReset (f : Flash) (warm : Bool) : Flash :=
  { fwA := f.fwA, fwB := f.fwB, boots := f.boots, svn := f.svn, sealFuses := f.sealFuses,
    grown := f.grown, factoryBad := f.factoryBad, remaps := f.remaps, erases := f.erases, refreshedAt := f.refreshedAt,
    bankA := f.bankA, bankB := f.bankB, models := f.models,
    bootTries := if warm then f.bootTries else 0, ue := if warm then f.ue else 0 }

end Sys2Proof.Machine
end

