-- ==== Sys2Proof/Machine/LinkOps.lean ====
section
/-! DEFINITION. Elcor egress: flits and the messages in them (R384 to R388), routes (R408), the order of a link's messages (R390),
credits (R391), the limit on background flits (R392) and the record of sent flits for replay (R388, R393). -/

namespace Sys2Proof.Machine

/-! ## Messages -/

/-- The virtual channel of a message: 0 data, 1 mirror, 2 sync, 3 management; 4 the link itself (R387). -/
def LinkMsg.vc : LinkMsg → Nat
  | .run r => r.vc
  | .barge vc _ _ _ => vc
  | .commit vc _ _ _ => vc
  | .mirrorCommit .. => 1
  | .signal vc _ _ => vc
  | .credit .. => 4 | .nack .. => 4 | .resend .. => 4 | .timeMark .. => 4 | .heartbeat .. => 4 | .hello .. => 4
  | .chunkAck .. => 2 | .retarget .. => 2 | .xferFail .. => 2 | .relayAck .. => 2 | .mirrorAck .. => 2
  | .standDown .. => 2 | .retract .. => 2 | .checkToken .. => 2
  | .ping .. => 3 | .echo .. => 3 | .censusArm .. => 3 | .digest .. => 3

/-- What a background control flit may carry, besides EMPTY (R392). -/
def LinkMsg.background : LinkMsg → Bool
  | .credit .. => true | .timeMark .. => true | .heartbeat .. => true | _ => false

/-- A barge, which travels as data flits; every other message stands in a control flit. -/
def LinkMsg.isBarge : LinkMsg → Bool
  | .barge .. => true
  | _ => false

/-- A message that spends a credit of its VC: a barge or a sync message (R391). -/
def LinkMsg.spends (m : LinkMsg) : Bool := m.isBarge || m.vc == 2

/-! ## Flits (R384, R385, R387) -/

/-- The sideband byte of a control flit: K is bit 7 (R384). DESIGN CHOICE (log 77): its other bits are 0. -/
def controlSide : Byte := 0x80

/-- The 112-bit link tag of a barge (R385). -/
def Tag.linkBits (t : Tag) : Nat :=
  t.crc.toNat + 2 ^ 32 * t.tensor.toNat + 2 ^ 64 * t.block.toNat + 2 ^ 96 * (t.fmt % 256) + 2 ^ 104 * (t.gen % 256)

/-- A barge as 16 data flits, each with its 256 bytes and its 7 bits of the link tag (R385). -/
def bargeFlits (bytes : List Byte) (t : Tag) : List Flit :=
  (List.range 16).map (fun i => { body := (bytes.drop (256 * i)).take 256, side := BitVec.ofNat 8 (bits t.linkBits (7 * i) 7) })

/-- The message slots that a control message takes (R387). -/
def LinkMsg.slots : LinkMsg → Nat
  | .run _ => 2
  | _ => 1

/-- The type code of a control message (R387; the subtypes of 0x07 are in 12 and R583). Census arms and digests have none there. -/
def LinkMsg.code : LinkMsg → Option Nat
  | .run _ => some 0x01
  | .commit .. => some 0x02 | .mirrorCommit .. => some 0x02
  | .signal .. => some 0x03
  | .credit .. => some 0x04
  | .nack _ => some 0x05
  | .timeMark .. => some 0x06
  | .chunkAck .. => some 0x07 | .retarget .. => some 0x07 | .xferFail .. => some 0x07 | .relayAck .. => some 0x07
  | .mirrorAck .. => some 0x07 | .standDown .. => some 0x07
  | .retract .. => some 0x08
  | .checkToken .. => some 0x09
  | .heartbeat .. => some 0x0A
  | .ping .. => some 0x0B
  | .echo .. => some 0x0C
  | .barge .. => none | .resend _ => none | .censusArm .. => none | .digest .. => none | .hello .. => none

/-- A word with some of its fields given, as (value, low bit, length), and the rest of `w`. -/
def withFields (w : Word) (fs : List (Nat × Nat × Nat)) : Word :=
  fs.foldl (fun w f =>
    BitVec.ofNat 32 (w.toNat - bits w.toNat f.2.1 f.2.2 * 2 ^ f.2.1 + f.1 % 2 ^ f.2.2 * 2 ^ f.2.1)) w

/-- The eight words of a slot, of which the spec gives the first ones. -/
def slotOf (given : List Word) (free : Nat → Word) : List Word := given ++ (List.range (8 - given.length)).map (fun i => free (given.length + i))

/-- A type 0x07 slot: its subtype and the bind epoch in word 0 (12, R583). -/
def ackWord (sub epoch : Nat) (free : Nat → Word) : Word := withFields (free 0) [(0x07, 24, 8), (sub, 20, 4), (epoch, 0, 16)]

/-- The slots of a control message, eight words each. Where the spec gives a message no layout, the words are free values under its type
code (log 77); `epoch` is the chip's bind epoch. -/
def LinkMsg.slotWords (m : LinkMsg) (epoch : Nat) (free : Nat → Word) : List (List Word) :=
  match m with
  | .heartbeat st ep sender seq t =>
    [[pack [(0x0A, 24), (st % 16, 16), (ep % 65536, 0)], pack [(sender % 2048, 16), (seq % 65536, 0)], lo32 t, hi32 t, 0, 0, 0, 0]]
  | .ping route ep sender seq target t =>
    [slotOf [pack [(0x0B, 24), (route % 4, 22), (ep % 65536, 0)], pack [(sender % 2048, 16), (seq % 65536, 0)], pack [(target % 2048, 0)],
      lo32 t, hi32 t, 0, 0, 0] free]
  | .echo route st ep sender seq target t =>
    [slotOf [pack [(0x0C, 24), (route % 4, 22), (st % 16, 16), (ep % 65536, 0)], pack [(sender % 2048, 16), (seq % 65536, 0)],
      pack [(target % 2048, 0)], lo32 t, hi32 t, 0, 0, 0] free]
  | .retract _ k chunk src reason depth =>
    [[pack [(0x08, 24), (k % 64, 16), (chunk % 65536, 0)], pack [(src % 2048, 16), (reason % 256, 8), (depth % 256, 0)], 0, 0, 0, 0, 0, 0]]
  | .checkToken _ k chunk src rate checked =>
    [[pack [(0x09, 24), (k % 64, 16), (chunk % 65536, 0)], pack [(src % 2048, 16), (rate % 8, 8), (checked % 256, 0)], 0, 0, 0, 0, 0, 0]]
  | .chunkAck .. => [slotOf [ackWord 0 epoch free] free]
  | .retarget .. => [slotOf [ackWord 1 epoch free] free]
  | .xferFail .. => [slotOf [ackWord 2 epoch free] free]
  | .relayAck ep k chunk => [[ackWord 3 ep free, pack [(k % 64, 16), (chunk % 65536, 0)], 0, 0, 0, 0, 0, 0]]
  | .mirrorAck ep k chunk => [[ackWord 4 ep free, pack [(k % 64, 16), (chunk % 65536, 0)], 0, 0, 0, 0, 0, 0]]
  | .standDown ep cause => [slotOf [ackWord 5 ep free, withFields (free 1) [(cause, 0, 8)]] free]
  | m => (List.range m.slots).map (fun i =>
      slotOf [withFields (free (8 * i)) (match m.code with | some t => [(t, 24, 8)] | none => [])] (fun w => free (8 * i + w)))

/-- The body of a control flit: its messages' slots, then EMPTY ones (R387). -/
def controlFlit (epoch draw : Nat) (ms : List LinkMsg) : Flit :=
  let used := ms.foldl (fun (a : List (List Word)) m => a ++ m.slotWords epoch (fun w => Config.freeWord draw (8 * a.length + w))) []
  let rest := (List.range (8 - used.length)).map (fun i =>
    let f (w : Nat) : Word := Config.freeWord draw (8 * (used.length + i) + w)
    slotOf [withFields (f 0) [(0, 24, 8)]] f)
  { body := (used ++ rest).flatten.flatMap (fun w => leBytes 4 w.toNat), side := controlSide }

/-- An EMPTY control flit, by its number on the link. -/
def emptyFlit (n : Nat) : Flit :=
  { body := (List.range 64).flatMap (fun w =>
      leBytes 4 (withFields (Config.emptyWord n w) (if w % 8 = 0 then [(0, 24, 8)] else [])).toNat),
    side := controlSide }

/-! ## What may leave next -/

/-- Credits of a VC. -/
def LinkSt.credits (l : LinkSt) (vc : Nat) : Nat := Table.look 0 l.cred vc

/-- The credits a link starts with (R391). -/
def fullCredits : Table Nat := [(0, 32), (1, 32), (2, 64), (3, 4)]

/-- A message has the credit that it needs (R391). -/
def LinkSt.covered (l : LinkSt) (m : LinkMsg) : Bool := !m.spends || decide (0 < l.credits m.vc)

/-- Something other than background traffic could leave now (R392). -/
def LinkSt.waiting (l : LinkSt) : Bool := l.egress.any (fun m => !m.background && l.covered m)

/-- A message may leave now as far as credits (R391) and the limit on background flits (R392) go. -/
def LinkSt.allows (l : LinkSt) (m : LinkMsg) : Bool :=
  l.covered m && !(m.background && decide (2 ≤ l.window.countP id) && l.waiting)

/-- The first waiting message of a VC, if the link may send it now; `may` says which VCs the chip may use. -/
def LinkSt.ready (l : LinkSt) (may : Nat → Bool) (vc : Nat) : Option LinkMsg :=
  (l.egress.find? (fun m => m.vc == vc)).filter (fun m => may vc && l.allows m)

/-- The next message of the link itself: a NACK ahead of everything (R393), then background messages. -/
def LinkSt.own (l : LinkSt) (may : Nat → Bool) : Option LinkMsg :=
  ((l.egress.find? (fun m => m.vc == 4 && !m.background)).filter (fun _ => may 4)).orElse (fun _ => l.ready may 4)

/-- The next message to leave: link messages, then R390's order. -/
def LinkSt.pick (l : LinkSt) (may : Nat → Bool) : Option LinkMsg :=
  let two := match l.ready may 0, l.ready may 1 with
    | some a, some b => some (if l.altMirror then b else a)
    | some a, none => some a
    | none, b => b
  ((l.own may).orElse (fun _ => l.ready may 2)).orElse (fun _ =>
    if l.boundary % 16 = 15 then (l.ready may 3).orElse (fun _ => two) else two.orElse (fun _ => l.ready may 3))

/-! ## Sending -/

/-- Two runs of one transfer on one VC. -/
def Run.same (a b : Run) : Bool := a.vc == b.vc && a.xfer == b.xfer

/-- A message leaves the egress: a credit is spent, its run opens or its transfer is over. -/
def LinkSt.take (l : LinkSt) (up : Nat) (m : LinkMsg) : LinkSt :=
  let l1 := { l with
    egress := l.egress.erase m,
    cred := if m.spends then Table.upd 0 l.cred m.vc (· - 1) else l.cred,
    dry := if m.spends && l.credits m.vc == 1 then Table.put 0 l.dry m.vc up else l.dry }
  match m with
  | .run r => { l1 with txRun := some (r.vc, r.xfer), txRuns := l1.txRuns.filter (fun x => !x.same r) ++ [r] }
  | .commit vc x _ _ => { l1 with txRuns := l1.txRuns.filter (fun r => !(r.vc == vc && r.xfer == x)) }
  | .barge vc _ _ _ => { l1 with altMirror := if vc = 0 then true else if vc = 1 then false else l1.altMirror,
                                 boundary := (l1.boundary + 1) % 16 }
  | .mirrorCommit .. => { l1 with txRuns := l1.txRuns.filter (fun r => r.vc != 1) }
  | _ => l1

/-- The RUN that has to open a barge's run again, another run being open (R386). -/
def LinkSt.reopen (l : LinkSt) (vc xfer : Nat) : Option Run :=
  if l.txRun = some (vc, xfer) then none else l.txRuns.find? (fun r => r.vc == vc && r.xfer == xfer)

/-- The control messages that leave together in one flit: those that come next, as long as they fit into `room` slots (DESIGN CHOICE, log
77: R387 gives a flit eight slots and does not say when they fill). -/
def LinkSt.gather (l : LinkSt) (may : Nat → Bool) (up room : Nat) : Nat → List LinkMsg × LinkSt
  | 0 => ([], l)
  | n + 1 =>
    match l.pick may with
    | none => ([], l)
    | some m =>
      if m.isBarge ∨ room < m.slots then ([], l)
      else
        let r := (l.take up m).gather may up (room - m.slots) n
        (m :: r.1, r.2)

/-- Flits are sent: numbered, counted and kept for replay (R388, R393). -/
def LinkSt.record (l : LinkSt) (background : Bool) (fs : List Flit) : LinkSt :=
  { l with
    window := lastN 15 (l.window ++ List.replicate fs.length background),
    txFlits := l.txFlits + BitVec.ofNat 64 fs.length,
    sent := lastN 128 (l.sent ++ (List.range fs.length).zip fs |>.map (fun e => (l.txCount + e.1, e.2))),
    txCount := l.txCount + fs.length, slots := l.slots + fs.length }

/-- The flit slots that a link in the state UP has had by time `up`: one each 5.12 ns (R380), of which the alignment markers take one in
16,384 (R381). -/
def LinkSt.elapsed (l : LinkSt) (up : Nat) : Nat := (up - l.upAt) * 25 / 128 - (up - l.upAt) * 25 / 128 / 16384

/-- Flit slots in which nothing was sent. -/
def LinkSt.idle (l : LinkSt) (up : Nat) : Nat := if l.state = .up then l.elapsed up - l.slots else 0

/-- The idle slots up to time `up` carry EMPTY control flits (R383, R392). -/
def LinkSt.filled (l : LinkSt) (up : Nat) : LinkSt :=
  let n := l.idle up
  { l with window := lastN 15 (l.window ++ List.replicate (min n 15) false), txFlits := l.txFlits + BitVec.ofNat 64 n,
           txCount := l.txCount + n, slots := l.slots + n }

/-- The EMPTY flits of a link's idle slots leave. -/
def State.fillIdle (s : State) (l : Nat) : State :=
  let n := (s.link l).idle s.time.up
  if n = 0 then s else (s.modLink l (·.filled s.time.up)).emit (.empties l (s.link l).txCount n)

/-- Send flits. -/
def State.sendFlits (s : State) (l : Nat) (background : Bool) (fs : List Flit) : State :=
  (s.modLink l (·.record background fs)).emit (.flits l (s.link l).txCount fs)

/-- Send a control flit with messages that have left the egress. -/
def State.sendControl (s : State) (l : Nat) (ms : List LinkMsg) : State :=
  let d := s.draw
  (d.2.each ms (fun s m => s.emit (.link l m))).sendFlits l (ms.all (·.background)) [controlFlit s.pair.epoch.toNat d.1 ms]

/-- Whether the chip may send on a VC (R441, R583, R658). -/
def State.maySend (s : State) (vc : Nat) : Bool :=
  s.rst.ready && s.rst.quiesce.isNone && !s.rst.railFault && (s.pair.state != .fenced || vc == 3) &&
  (s.pair.standing.isNone || 2 ≤ vc)

/-- Send what may leave a link, in at most `n` barges and control flits. -/
def State.pump (s : State) (l : Nat) : Nat → State
  | 0 => s
  | n + 1 =>
    let k := s.link l
    if k.state != .up then s
    else
      match k.pick s.maySend with
      | none => s
      | some (.barge vc x b t) =>
        let s1 := match k.reopen vc x with
          | some r => (s.setLink l { k with txRun := some (vc, x) }).sendControl l [.run r]
          | none => s
        (((s1.modLink l (·.take s.time.up (.barge vc x b t))).emit (.link l (.barge vc x b t))).sendFlits l false (bargeFlits b t)).pump l n
      | some _ =>
        let g := k.gather s.maySend s.time.up 8 8
        ((s.setLink l g.2).sendControl l g.1).pump l n

/-! ## Waits for credits (R391) -/

/-- The VC of job barges on a link: the data VC, and on a twin link the mirror VC (R390, R419). -/
def bargeVc (l : Nat) : Nat := if 32 ≤ l then 1 else 0

/-- Barges of a link's job VC that its credits cover beyond those which wait in the egress. -/
def LinkSt.spare (k : LinkSt) (l : Nat) : Nat :=
  k.credits (bargeVc l) - k.egress.countP (fun m => m.isBarge && m.vc == bargeVc l)

/-- Something waits for a credit of link `l`: a message in its egress, or a barge that a data mover holds back. -/
def State.shortOfCredit (s : State) (l : Nat) : Bool :=
  (s.link l).egress.any (fun m => !(s.link l).covered m) ||
  ((s.link l).spare l == 0 && (List.range 24).any (fun c => (s.core c).linkSends.any (fun x => x.link == l)))

/-- `LINK_CREDIT_WAIT`: cycles in which the egress waited for credits. -/
def State.noteWait (s : State) (l : Nat) : State :=
  let short := s.shortOfCredit l
  s.modLink l (fun k =>
    if short then { k with waitSince := some (k.waitSince.getD s.time.up) }
    else match k.waitSince with
      | some t => { k with waitSince := none, creditWait := satAdd k.creditWait (cyclesOf (s.time.up - t)) }
      | none => k)

/-- Send what may leave a link after its idle slots. -/
def State.drainLink (s : State) (l : Nat) : State := ((s.fillIdle l).pump l (s.link l).egress.length).noteWait l

/-- Queue messages on a link and send what may leave. Messages for a link that is not UP are lost. -/
def State.sendOn (s : State) (l : Nat) (ms : List LinkMsg) : State :=
  if (s.link l).state = .up ∧ ms ≠ [] then
    (s.modLink l (fun k => { k with egress := k.egress ++ ms })).drainLink l
  else s

/-- The twin links. -/
def twinLinks : List Nat := [32, 33, 34, 35]
/-- Twin links that are UP. -/
def State.twinUp (s : State) : List Nat := twinLinks.filter (fun l => (s.link l).state == .up)

/-- The links that lead to the twin: the twin links, or the spare path (R456). -/
def State.toTwin (s : State) : List Nat :=
  if s.pair.spare then (match s.route with | some r => (r.spare.map (·.2)).toList | none => []) else s.twinUp

/-- Send to the twin on the first link that leads there. -/
def State.sendTwin (s : State) (ms : List LinkMsg) : State :=
  match s.toTwin with
  | l :: _ => s.sendOn l ms
  | [] => s

/-- The route entry for a destination chip: its egress links (R408). -/
def State.routeTo (s : State) (dest : Nat) : List Nat :=
  match s.route with
  | some r => ((r.routes.find? (fun e => e.1 == dest)).map (·.2)).getD []
  | none => []

/-- The egress links to a destination chip: by the route table, and to a chip of the other plane that it does not list over the
twin links (R408, R419). -/
def State.pathTo (s : State) (dest : Nat) : List Nat :=
  match s.routeTo dest with
  | [] => if s.time.chipValid && dest % 2 != s.time.chip % 2 then s.twinUp.take 1 else []
  | ls => ls

/-- The chip that takes a job's sends to `dest`: after a RETARGET the survivor (R729). -/
def State.target (s : State) (dest : Nat) : Nat := (Table.look none s.subst dest).getD dest

/-- A job's transfer crosses twin links on the mirror VC, as device traffic (R419). -/
def LinkMsg.overLink (l : Nat) (m : LinkMsg) : LinkMsg :=
  let vc := if 32 ≤ l then 1 else 0
  match m with
  | .run r => .run { r with vc := vc }
  | .barge _ x b t => .barge vc x b t
  | .commit _ x p g => .commit vc x p g
  | m => m

/-- Send to a chip: its twin, or by the route table. -/
def State.sendTo (s : State) (dest : Nat) (ms : List LinkMsg) : State :=
  if dest = s.pair.twinChip ∧ s.pair.state ≠ .unbound then s.sendTwin ms
  else match s.pathTo dest with
    | l :: _ => s.sendOn l ms
    | [] => s

/-- Forward messages on their way through the chip to `dest` (R405, R408, R440). -/
def State.forward (s : State) (dest : Nat) (ms : List LinkMsg) : State :=
  match s.pathTo dest with
  | l :: _ => s.sendOn l (ms.map (LinkMsg.overLink l))
  | [] => s

/-- A received barge or sync message has left its buffer: a credit is free to return (R391). -/
def State.freeCredit (s : State) (l vc n : Nat) : State :=
  if n = 0 then s
  else s.modLink l (fun k => { k with freed := Table.upd 0 k.freed vc (· + n),
                                      freedAt := some (k.freedAt.getD s.time.up) })

end Sys2Proof.Machine
end

