-- ==== Sys2Proof/Machine/Num.lean ====
section
/-! DEFINITION. Number formats (04_number_formats.md): decoding, exact arithmetic on sign, magnitude and power of
two, rounding to nearest with ties to even, narrowing and packing. -/

namespace Sys2Proof.Machine

/-- A decoded value: a finite one is (−1)^neg × m × 2^e. -/
inductive Val where
  | fin (neg : Bool) (m : Nat) (e : Int)
  | inf (neg : Bool)
  | nan
  deriving DecidableEq, Repr, Inhabited

/-- Number of bits of a magnitude. -/
def blen (n : Nat) : Nat := if n = 0 then 0 else Nat.log2 n + 1

/-- A floating format: fraction bits, exponent bits, bias, largest finite code (without sign), canonical NaN,
whether it has infinities. -/
structure FloatFmt where
  frac : Nat
  expb : Nat
  bias : Int
  top : Nat
  nanCode : Nat
  hasInf : Bool
  deriving DecidableEq, Repr

/-- The floating formats by code (R133, R136). -/
def floatFmt : Nat → Option FloatFmt
  | 0x01 => some ⟨7, 8, 127, 0x7F7F, 0x7FC0, true⟩
  | 0x02 => some ⟨10, 5, 15, 0x7BFF, 0x7E00, true⟩
  | 0x03 => some ⟨3, 4, 7, 0x7E, 0x7F, false⟩
  | 0x04 => some ⟨2, 5, 15, 0x7B, 0x7E, true⟩
  | 0x05 => some ⟨2, 3, 3, 0x1F, 0, false⟩
  | 0x06 => some ⟨1, 2, 1, 0x7, 0, false⟩
  | 0x10 => some ⟨23, 8, 127, 0x7F7FFFFF, 0x7FC00000, true⟩
  | _ => none

/-- Bits per element of a format code (R133); 8 for raw bytes. -/
def fmtBits (fmt : Nat) : Nat :=
  if fmt = 0x01 ∨ fmt = 0x02 then 16
  else if fmt = 0x05 then 6
  else if fmt = 0x06 ∨ fmt = 0x08 then 4
  else if fmt = 0x10 ∨ fmt = 0x11 then 32
  else 8

/-- A narrow format, one that carries block scales (R139). -/
def fmtNarrow (fmt : Nat) : Bool := 3 ≤ fmt && fmt ≤ 8

/-- A floating code (R134, R135). -/
def decodeFloat (f : FloatFmt) (code : Nat) : Val :=
  let neg := bitAt code (f.frac + f.expb)
  let mag := bits code 0 (f.frac + f.expb)
  let e := mag / 2 ^ f.frac
  let m := mag % 2 ^ f.frac
  if f.top < mag then
    (if f.hasInf ∧ mag = f.top + 1 then .inf neg
     else if f.nanCode = 0 then .fin neg m 0 else .nan)
  else if e = 0 then .fin neg m (1 - f.bias - f.frac)
  else .fin neg (2 ^ f.frac + m) ((e : Int) - f.bias - f.frac)

/-- The value of a whole number. -/
def Val.ofInt (z : Int) : Val := .fin (decide (z < 0)) z.natAbs 0

/-- The code `code` of format `fmt` (R133 to R135). -/
def decode (fmt code : Nat) : Val :=
  match floatFmt fmt with
  | some f => decodeFloat f code
  | none =>
    if fmt = 0x07 then .ofInt (signed 8 code)
    else if fmt = 0x08 then .ofInt (signed 4 code)
    else if fmt = 0x11 then .ofInt (signed 32 code)
    else .ofInt code

/-- `m / 2^s` rounded to nearest, ties to even. -/
def rneShift (m s : Nat) : Nat :=
  let q := m / 2 ^ s
  let r := m % 2 ^ s
  if 2 * r > 2 ^ s ∨ (2 * r = 2 ^ s ∧ q % 2 = 1) then q + 1 else q

/-- `a / b` rounded to nearest, ties to even. -/
def rneDiv (a b : Nat) : Nat :=
  let q := a / b
  let r := a % b
  if 2 * r > b ∨ (2 * r = b ∧ q % 2 = 1) then q + 1 else q

/-- The magnitude code that m × 2^e rounds to in a format, which may lie above its largest finite code. -/
def roundMag (f : FloatFmt) (m : Nat) (e : Int) : Nat :=
  if m = 0 then 0
  else
    let least : Int := 1 - f.bias - f.frac
    let q : Int := max (e + blen m - 1 - f.frac) least
    let mant := if q ≤ e then m * 2 ^ (e - q).toNat else rneShift m (q - e).toNat
    (q - least).toNat * 2 ^ f.frac + mant

/-- The FP32 format. -/
def fp32 : FloatFmt := ⟨23, 8, 127, 0x7F7FFFFF, 0x7FC00000, true⟩

/-- The canonical FP32 NaN (R136). -/
def nan32 : Word := 0x7FC00000

/-- Rounding a value to FP32: to nearest, ties to even, subnormals kept, infinities beyond the range. -/
def toF32 : Val → Word
  | .nan => nan32
  | .inf neg => BitVec.ofNat 32 (b2n neg * 2 ^ 31 + 0x7F800000)
  | .fin neg m e =>
    BitVec.ofNat 32 (b2n neg * 2 ^ 31 + min (roundMag fp32 m e) 0x7F800000)

/-- The value of an FP32 word. -/
def ofF32 (w : Word) : Val := decodeFloat fp32 w.toNat

/-- Whether a value is a NaN or an infinity. -/
def Val.nonfinite : Val → Bool
  | .fin _ _ _ => false
  | _ => true

/-- The negative of a value. -/
def Val.neg : Val → Val
  | .fin n m e => .fin (!n) m e
  | .inf n => .inf (!n)
  | .nan => .nan

/-- Magnitude. -/
def Val.abs : Val → Val
  | .fin _ m e => .fin false m e
  | .inf _ => .inf false
  | .nan => .nan

/-- The sign bit; a NaN is positive (R136). -/
def Val.isNeg : Val → Bool
  | .fin n _ _ => n
  | .inf n => n
  | .nan => false

/-- The whole number `v × 2^-e` of a finite value, for `e` at most its own exponent. -/
def Val.intAt (v : Val) (lo : Int) : Int :=
  match v with
  | .fin n m e => (if n then -1 else 1) * (m : Int) * 2 ^ (e - lo).toNat
  | _ => 0

/-- Exponent of a finite value's last bit. -/
def Val.low : Val → Int
  | .fin _ _ e => e
  | _ => 0

/-- Exact sum. An exact zero is −0 only when both summands are −0 (PRESUMED: IEEE 754's zero rule). -/
def Val.add (a b : Val) : Val :=
  match a, b with
  | .nan, _ => .nan
  | _, .nan => .nan
  | .inf x, .inf y => if x = y then .inf x else .nan
  | .inf x, _ => .inf x
  | _, .inf y => .inf y
  | .fin n1 m1 e1, .fin n2 m2 e2 =>
    let lo := min e1 e2
    let z := (Val.fin n1 m1 e1).intAt lo + (Val.fin n2 m2 e2).intAt lo
    if z = 0 then .fin (n1 && n2 && m1 == 0 && m2 == 0) 0 0
    else .fin (decide (z < 0)) z.natAbs lo

/-- Exact product. -/
def Val.mul (a b : Val) : Val :=
  match a, b with
  | .nan, _ => .nan
  | _, .nan => .nan
  | .inf x, .inf y => .inf (x != y)
  | .inf x, .fin n m _ => if m = 0 then .nan else .inf (x != n)
  | .fin n m _, .inf y => if m = 0 then .nan else .inf (n != y)
  | .fin n1 m1 e1, .fin n2 m2 e2 => .fin (n1 != n2) (m1 * m2) (e1 + e2)

/-- Scaling by a power of two, exact. -/
def Val.scale (v : Val) (k : Int) : Val :=
  match v with
  | .fin n m e => .fin n m (e + k)
  | v => v

/-- `a < b` for values that are not NaN. -/
def Val.lt (a b : Val) : Bool :=
  match a, b with
  | .nan, _ => false
  | _, .nan => false
  | .inf x, .inf y => x && !y
  | .inf x, _ => x
  | _, .inf y => !y
  | .fin n1 m1 e1, .fin n2 m2 e2 =>
    let lo := min e1 e2
    decide ((Val.fin n1 m1 e1).intAt lo < (Val.fin n2 m2 e2).intAt lo)

/-- Whether a value is a zero. -/
def Val.isZero : Val → Bool
  | .fin _ m _ => m == 0
  | _ => false

/-- Exponent of the leading bit of a non-zero finite value. -/
def Val.lead : Val → Int
  | .fin _ m e => e + blen m - 1
  | _ => 0

/-- FP32 operations with one rounding. -/
def f32add (a b : Word) : Word := toF32 ((ofF32 a).add (ofF32 b))
def f32mul (a b : Word) : Word := toF32 ((ofF32 a).mul (ofF32 b))
def f32neg (a : Word) : Word := toF32 (ofF32 a).neg
/-- Fused multiply-add: a × b + c, rounded once. -/
def f32fma (a b c : Word) : Word := toF32 (((ofF32 a).mul (ofF32 b)).add (ofF32 c))

/-- The nearest whole number, ties to even. -/
def Val.round : Val → Int
  | .fin n m e =>
    let k : Int := (if 0 ≤ e then m * 2 ^ e.toNat else rneShift m (-e).toNat : Nat)
    if n then -k else k
  | _ => 0

/-- Largest finite magnitude F of a target format (R133, R147). -/
def fmtMax (fmt : Nat) : Val :=
  match floatFmt fmt with
  | some f => decodeFloat f f.top
  | none => if fmt = 0x08 then .fin false 7 0 else if fmt = 0x07 then .fin false 127 0 else .fin false (2 ^ 31 - 1) 0

/-- Steps 4 and 5 of R143: the code of `t` in a target format, and whether step 5 applied. -/
def encodeSat (fmt : Nat) (t : Val) : Nat × Bool :=
  match t with
  | .nan => ((match floatFmt fmt with | some f => f.nanCode | none => 0), false)
  | _ =>
    match floatFmt fmt with
    | some f =>
      let sign := b2n t.isNeg * 2 ^ (f.frac + f.expb)
      let mag := match t with | .fin _ m e => roundMag f m e | _ => f.top + 1
      if (fmtMax fmt).lt t.abs then (sign + f.top, true) else (sign + min mag f.top, false)
    | none =>
      let w := fmtBits fmt
      let top : Int := if fmt = 0x08 then 7 else if fmt = 0x07 then 127 else 2 ^ 31 - 1
      let above := (fmtMax fmt).lt t.abs
      let z := match t with | .fin _ _ _ => t.round | _ => if t.isNeg then -top - 1 else top + 1
      let low : Int := if fmt = 0x11 then -top - 1 else -top
      ((max low (min top z) % 2 ^ w).toNat, above)

/-- Narrowing under R143 to R146 for an element with channel limit `lim` and block scale `s` (`none` for a format
without block scales): the code, whether it is a clip, whether the input was non-finite. -/
def narrow (fmt : Nat) (scale : Option (Val × Nat)) (x : Val) : Nat × Bool × Bool :=
  match x with
  | .nan => ((encodeSat fmt .nan).1, false, true)
  | _ =>
    match scale with
    | none => let r := encodeSat fmt x; (r.1, r.2 || x.nonfinite, x.nonfinite)
    | some (lim, s) =>
      let above := lim.lt x.abs
      let c := if above then (if x.isNeg then lim.neg else lim) else x
      ((encodeSat fmt (c.scale (127 - (s : Int)))).1, above, x.nonfinite)

/-- Widening a narrow value with its block scale to FP32 (R139, R142). -/
def widen (fmt code s : Nat) : Word :=
  if fmtNarrow fmt ∧ s = 0xFF then nan32
  else if fmtNarrow fmt then toF32 ((decode fmt code).scale ((s : Int) - 127))
  else toF32 (decode fmt code)

/-- Elements of packed row bytes (R138). -/
def unpack (fmt : Nat) : List Byte → List Nat
  | [] => []
  | a :: t =>
    if fmtBits fmt = 4 then bits a.toNat 0 4 :: bits a.toNat 4 4 :: unpack fmt t
    else if fmtBits fmt = 8 then a.toNat :: unpack fmt t
    else
      match t with
      | [] => [a.toNat]
      | b :: t =>
        if fmtBits fmt = 16 then leNat [a, b] :: unpack fmt t
        else
          match t with
          | [] => [leNat [a, b]]
          | c :: t =>
            if fmtBits fmt = 6 then
              let u := leNat [a, b, c]
              bits u 0 6 :: bits u 6 6 :: bits u 12 6 :: bits u 18 6 :: unpack fmt t
            else
              match t with
              | [] => [leNat [a, b, c]]
              | d :: t => leNat [a, b, c, d] :: unpack fmt t

/-- Packed row bytes of elements (R138). -/
def packElems (fmt : Nat) : List Nat → List Byte
  | [] => []
  | a :: t =>
    if fmtBits fmt = 8 then BitVec.ofNat 8 a :: packElems fmt t
    else if fmtBits fmt = 16 then leBytes 2 a ++ packElems fmt t
    else if fmtBits fmt = 32 then leBytes 4 a ++ packElems fmt t
    else
      match t with
      | [] => [BitVec.ofNat 8 a]
      | b :: t =>
        if fmtBits fmt = 4 then BitVec.ofNat 8 (a + 16 * b) :: packElems fmt t
        else
          match t with
          | c :: d :: t => leBytes 3 (a + 2 ^ 6 * b + 2 ^ 12 * c + 2 ^ 18 * d) ++ packElems fmt t
          | [c] => leBytes 3 (a + 2 ^ 6 * b + 2 ^ 12 * c)
          | [] => leBytes 2 (a + 2 ^ 6 * b)

end Sys2Proof.Machine
end

