-- ==== Sys2Proof/Machine/MeMath.lean ====
section
/-! DEFINITION. The matrix engine's arithmetic (03_matrix_engine.md R96 to R105, R108, R109, R111, R114, R117). -/

namespace Sys2Proof.Machine

/-- A PE operand (R96): sign, exponent e (0 means zero), the 7 fraction bits of the significand. -/
structure PeOp where
  neg : Bool
  e : Nat
  m : Nat
  deriving DecidableEq, Repr, Inhabited

/-- The 14-bit form of an operand. -/
def PeOp.code (o : PeOp) : Nat := b2n o.neg * 2 ^ 13 + o.e * 2 ^ 7 + o.m

/-- The zero operand. -/
def peZero : PeOp := ⟨false, 0, 0⟩

/-- The operand of a non-zero magnitude of at most 8 significant bits with expanded exponent `e`; zero, and a
flush, when `e < 1` (R99). -/
def peMake (neg : Bool) (m : Nat) (e : Int) : PeOp × Bool :=
  if e < 1 then (peZero, true)
  else (⟨neg, e.toNat, m * 2 ^ (8 - blen m) % 128⟩, false)

/-- The constant c of R98. -/
def expandC : Nat → Int
  | 0x03 => 55 | 0x04 => 48 | 0x05 => 59 | 0x06 => 61 | 0x07 => 56 | 0x08 => 60 | _ => 0

/-- One part of a slice: its operands in K order. -/
structure Slice where
  hi : List PeOp
  lo : List PeOp
  x : Int
  bad : List Bool
  flush : Nat
  deriving DecidableEq, Repr, Inhabited

/-- Number of true entries. -/
def countTrue (l : List Bool) : Nat := l.countP id

/-- The slice of a narrow row or column: codes in K order with the block-scale byte of each group of 32 (R98,
R100). `skip` names the K indices forced to zero (R108). -/
def sliceNarrow (fmt : Nat) (codes scales : List Nat) (skip : List Nat) : Slice :=
  let smax := scales.foldl max 0
  let c := expandC fmt
  let one (k code : Nat) : PeOp × Bool × Bool :=
    let sb := scales.getD (k / 32) 0
    if skip.contains k then (peZero, false, false)
    else if sb = 0xFF then (peZero, false, true)
    else
      match decode fmt code with
      | .fin neg m e =>
        if m = 0 then (peZero, false, false)
        else
          let r := peMake neg m ((Val.fin neg m e).lead + c - ((smax : Int) - sb))
          (r.1, r.2, false)
      | _ => (peZero, false, true)
  let es := (List.range codes.length).zip codes |>.map (fun p => one p.1 p.2)
  { hi := es.map (·.1), lo := codes.map (fun _ => peZero), x := (smax : Int) - 64 - c, bad := es.map (·.2.2),
    flush := countTrue (es.map (·.2.1)) }

/-- The hi part of a magnitude: its leading 8 significant bits (R101). -/
def hiPart (m : Nat) : Nat := if blen m ≤ 8 then m else m / 2 ^ (blen m - 8) * 2 ^ (blen m - 8)

/-- The slice of values that expand as 16-bit elements do (R101). The largest exponent is that of all 256 elements; the operands that
R108 forces to zero, at the indices of `skip`, count in it. -/
def sliceVals (vs : List Val) (skip : List Nat) : Slice :=
  let live := (List.range vs.length).zip vs |>.filter (fun p => !p.2.nonfinite && !p.2.isZero)
  let emax := match live with
    | [] => 0
    | p :: t => t.foldl (fun a q => max a q.2.lead) p.2.lead
  let part (f : Nat → Nat) (k : Nat) (v : Val) : PeOp × Bool :=
    match v with
    | .fin neg m e =>
      let h := f m
      if skip.contains k ∨ h = 0 then (peZero, false)
      else
        let top := e + blen h - 1
        -- normalise to at most 8 significant bits before packing the fraction
        let sig := if blen h ≤ 8 then h else h / 2 ^ (blen h - 8)
        peMake neg sig (top - emax + 63)
    | _ => (peZero, false)
  let idx := (List.range vs.length).zip vs
  let his := idx.map (fun p => part hiPart p.1 p.2)
  let los := idx.map (fun p => part (fun m => m - hiPart m) p.1 p.2)
  { hi := his.map (·.1), lo := los.map (·.1), x := emax,
    bad := idx.map (fun p => !skip.contains p.1 && p.2.nonfinite),
    flush := countTrue (his.map (·.2)) + countTrue (los.map (·.2)) }

/-- The slice of a BF16 or FP16 row or column (R101). -/
def sliceWide (fmt : Nat) (codes : List Nat) (skip : List Nat) : Slice := sliceVals (codes.map (decode fmt)) skip

/-- A value rounded to 8 significant bits, to nearest with ties to even (R251). -/
def round8 : Val → Val
  | .fin n m e => if blen m ≤ 8 then .fin n m e else .fin n (rneShift m (blen m - 8)) (e + (blen m - 8 : Nat))
  | v => v

/-- The value of element `d` of position `t` of a KV span (R242, R243, R250, R251). -/
def kvValue (codes scales : List Byte) (int4 : Bool) (dh valid t d : Nat) : Val :=
  if valid ≤ t ∨ dh ≤ d then .fin false 0 0
  else
    let fmt := if int4 then 8 else 7
    let i := t * dh + d
    let code := if int4 then bits ((codes.getD (i / 2) 0).toNat) (4 * (i % 2)) 4 else (codes.getD i 0).toNat
    let o := 2 * (t * (dh / 64) + d / 64)
    round8 ((decode fmt code).mul (decode 1 (leNat [scales.getD o 0, scales.getD (o + 1) 0])))

/-- Weight column `n` of a KV set: ORIENT 0 has row k element k and column n position n, ORIENT 1 the reverse (R248). -/
def kvColumn (codes scales : List Byte) (orient int4 : Bool) (dh valid n : Nat) : Slice :=
  sliceVals ((List.range 256).map (fun k =>
    if orient then kvValue codes scales int4 dh valid k n else kvValue codes scales int4 dh valid n k)) []

/-- The slice of a row or column in any operand format. -/
def slice (fmt : Nat) (codes scales : List Nat) (skip : List Nat) : Slice :=
  if fmtNarrow fmt then sliceNarrow fmt codes scales skip else sliceWide fmt codes skip

/-- A product: whole number and power of two. -/
structure Prod2 where
  m : Int
  e : Int
  deriving DecidableEq, Repr

/-- The exact product of two operands, scaled by 2^x (R103). -/
def peProduct (x : Int) (a w : PeOp) : Prod2 :=
  if a.e = 0 ∨ w.e = 0 then ⟨0, 0⟩
  else
    let k : Int := (128 + a.m) * (128 + w.m)
    ⟨if a.neg != w.neg then -k else k, (a.e : Int) + w.e - 126 - 14 + x⟩

/-- The exact product of two values. -/
def valProduct (a w : Val) : Prod2 :=
  match a.mul w with
  | .fin n m e => ⟨if n then -(m : Int) else m, e⟩
  | _ => ⟨0, 0⟩

/-- Bits kept below the leading bit (R104; DEDUCED: a window of 48 bits below that leading bit). -/
def sumWindow : Int := 48

/-- Steps 1 to 4 of R104: align to the largest leading bit, keep the window and truncate, sum, round to FP32. -/
def columnSum (ps : List Prod2) : Word :=
  let live := ps.filter (fun p => p.m != 0)
  match live with
  | [] => 0
  | p :: t =>
    let lead (q : Prod2) : Int := q.e + blen q.m.natAbs - 1
    let lo := t.foldl (fun a q => max a (lead q)) (lead p) - sumWindow
    let cut (q : Prod2) : Int :=
      if lo ≤ q.e then q.m * 2 ^ (q.e - lo).toNat
      else
        let k : Int := (q.m.natAbs / 2 ^ (lo - q.e).toNat : Nat)
        if q.m < 0 then -k else k
    let z := (live.map cut).foldl (· + ·) 0
    toF32 (.fin (decide (z < 0)) z.natAbs lo)

/-- A weight block, read from its image bytes (R116, R117): format, Bashaba, outlier channels, columns. -/
structure Block where
  fmt : Nat
  bashaba : Bool
  outIdx : List Nat
  image : List Byte
  deriving DecidableEq, Repr

/-- The code section's size Z (R116). -/
def codeBytes (fmt : Nat) : Nat := fmtBits fmt * 8192

/-- The image's size (R116). -/
def imageBytes (fmt : Nat) : Nat := codeBytes fmt + 12288

/-- Byte `o` of an image. -/
def imgByte (img : List Byte) (o : Nat) : Nat := (img.getD o 0).toNat

/-- Bytes `o` to `o + n − 1` of an image. -/
def imgSlice (img : List Byte) (o n : Nat) : List Byte := (img.drop o).take n

/-- The header as a block (R117). -/
def blockOf (img : List Byte) : Block :=
  let n := bits (imgByte img 2) 0 5
  { fmt := imgByte img 0, bashaba := bitAt (imgByte img 1) 0, image := img,
    outIdx := (List.range (min n 16)).map (fun i => imgByte img (4 + i)) }

/-- A list of naturals rises strictly. -/
def strictlyRising : List Nat → Bool
  | a :: b :: t => decide (a < b) && strictlyRising (b :: t)
  | _ => true

/-- The header check of R118, for a load plane of format `fmt` and the descriptor's BASHABA. -/
def headerOk (img : List Byte) (fmt : Nat) (bashaba : Bool) : Bool :=
  let w0 := leNat (imgSlice img 0 4)
  let n := bits w0 16 5
  let hb := bitAt w0 8
  bits w0 0 8 == fmt && hb == bashaba && (!hb || fmt == 7) && decide (n ≤ 16) &&
  (n == 0 || (fmt ≠ 1 && fmt ≠ 2 && !hb)) && strictlyRising (blockOf img).outIdx &&
  bits w0 21 11 == 0 && bits w0 9 7 == 0 && (imgSlice img 20 236).all (· == 0)

/-- Codes of weight column `n`, in K order. -/
def Block.column (b : Block) (n : Nat) : List Nat :=
  (List.range 256).map (fun k =>
    (unpack b.fmt (imgSlice b.image (0x3000 + k * (codeBytes b.fmt / 256)) (codeBytes b.fmt / 256))).getD n 0)

/-- The 8 block scales of weight column `n`. -/
def Block.scales (b : Block) (n : Nat) : List Nat :=
  (List.range 8).map (fun j => imgByte b.image (0x100 + 8 * n + j))

/-- Outlier weight `i` of column `n` (R116). -/
def Block.outlier (b : Block) (i n : Nat) : Val :=
  decode 1 (leNat (imgSlice b.image (0x900 + 512 * i + 2 * n) 2))

/-- Weight column `n` as a slice; outlier K rows are ignored (R108). -/
def Block.columnSlice (b : Block) (n : Nat) : Slice := slice b.fmt (b.column n) (b.scales n) b.outIdx

/-- Operands flushed to zero when a block is loaded (R99). -/
def Block.flushes (b : Block) : Nat :=
  if b.bashaba then 0 else ((List.range 256).map (fun n => (b.columnSlice n).flush)).sum

/-- One pass of a column: its 256 main products and, in the hi × hi pass, its outlier products; a non-finite
operand makes the sum a NaN (R105). -/
def passSum (a w : Slice) (ap wp : List PeOp) (outs : List (Val × Val)) : Word :=
  let bad := (a.bad.zip w.bad).any (fun p => p.1 || p.2) || outs.any (fun p => p.1.nonfinite || p.2.nonfinite)
  if bad then nan32
  else columnSum ((ap.zip wp).map (fun p => peProduct (a.x + w.x) p.1 p.2) ++ outs.map (fun p => valProduct p.1 p.2))

/-- Add a pass's sum to an element (R104 step 5, R105): a NaN stays a NaN. -/
def accAdd (old sum : Word) : Word :=
  if sum = nan32 ∨ (ofF32 old) = .nan then nan32 else f32add old sum

/-- The element of a column with weights `w` after one activation row, and how many of its element writes were NaN
or infinite. `accum` false writes the first pass's sum and adds the others. -/
def elementAfter (w : Slice) (outs : List (Val × Val)) (a : Slice) (wide accum : Bool) (old : Word) : Word × Nat :=
  let sums := if wide then
      [passSum a w a.hi w.hi outs, passSum a w a.hi w.lo [], passSum a w a.lo w.hi [], passSum a w a.lo w.lo []]
    else [passSum a w a.hi w.hi outs]
  let step (acc : Word × Nat × Bool) (sum : Word) : Word × Nat × Bool :=
    let v := if acc.2.2 then accAdd acc.1 sum else sum
    (v, acc.2.1 + b2n (ofF32 v).nonfinite, true)
  let r := sums.foldl step (old, 0, accum)
  (r.1, r.2.1)

/-- The INT32 element of column `n` after one Bashaba row, and whether it saturated (R114). -/
def elementBashaba (b : Block) (codes : List Nat) (accum : Bool) (old : Word) (n : Nat) : Word × Bool :=
  let z := ((codes.zip (b.column n)).map (fun p => signed 8 p.1 * signed 8 p.2)).foldl (· + ·) 0
  let t := if accum then signed 32 old.toNat + z else z
  let c := max (-2147483648) (min 2147483647 t)
  (BitVec.ofInt 32 c, decide (c ≠ t))

/-- A rescaled element: s × acc + b computed exactly and rounded once (R111). -/
def rescaled (int32 : Bool) (acc s b : Word) : Word :=
  let v := if int32 then Val.ofInt (signed 32 acc.toNat) else ofF32 acc
  toF32 ((v.mul (ofF32 s)).add (ofF32 b))

end Sys2Proof.Machine
end

