-- ==== Sys2Proof/Machine/MeOps.lean ====
section
/-! DEFINITION. The matrix engine's commands on one core (03_matrix_engine.md R90 to R131). -/

namespace Sys2Proof.Machine

/-! ## Descriptor fields -/
def mBashaba (ws : List Word) : Bool := bitAt (dw ws 1) 31
def mAccum (ws : List Word) : Bool := bitAt (dw ws 1) 30
def mSwap (ws : List Word) : Bool := bitAt (dw ws 1) 29
def mNextw (ws : List Word) : Bool := bitAt (dw ws 1) 28
def mRescale (ws : List Word) : Bool := bitAt (dw ws 1) 27
def mClear (ws : List Word) : Bool := bitAt (dw ws 1) 26
def mBank (ws : List Word) : Nat := bits (dw ws 1) 21 2
def mRow0 (ws : List Word) : Nat := bits (dw ws 1) 13 8

/-- Word 1 flags an opcode may set (R121): bit 5 BASHABA to bit 0 CLEAR. -/
def meFlagsAllowed : Nat → Nat
  | 0x01 => 32 | 0x02 => 60 | 0x03 => 3 | 0x05 => 32 | _ => 0

/-- Word 0 and word 1 are legal for opcode `op`. -/
def meWordsOk (ws : List Word) (allowed : Nat) : Bool :=
  word0Ok ws && bits (dw ws 1) 23 3 == 0 && bits (dw ws 1) 5 8 == 0 &&
  ((bits (dw ws 1) 26 6) &&& (63 - allowed)) == 0

/-- A weight image plane (R121). -/
def weightPlaneOk (p : Plane) : Bool :=
  1 ≤ p.fmt && p.fmt ≤ 8 && p.rowsM1 == 0 && p.rowBytes == imageBytes p.fmt && p.skew == 0

/-- An activation plane (R121). -/
def actPlaneOk (p : Plane) (bashaba : Bool) : Bool :=
  1 ≤ p.fmt && p.fmt ≤ 8 && p.widthM1 + 1 == fmtBits p.fmt &&
  (p.rowsM1 == 0 || p.pitch == p.widthM1 + 1) && p.skew == 0 && (!bashaba || p.fmt == 7)

/-- A drain's output plane (R121). -/
def drainPlaneOk (p : Plane) (rescale : Bool) : Bool :=
  (p.fmt == 1 || p.fmt == 2 || p.fmt == 0x10 || p.fmt == 0x11) &&
  p.widthM1 + 1 == (if p.fmt ≤ 2 then 16 else 32) &&
  (p.rowsM1 == 0 || p.pitch == p.widthM1 + 1) && !(p.fmt == 0x11 && rescale)

/-! ## Weight sets -/

/-- A weight set by number. -/
def Me.set (m : Me) (i : Nat) : WeightSet := if i = 0 then m.set0 else m.set1
/-- Store a weight set. -/
def Me.putSet (m : Me) (i : Nat) (w : WeightSet) : Me := if i = 0 then { m with set0 := w } else { m with set1 := w }
/-- The active and the shadow set. -/
def Me.activeSet (m : Me) : WeightSet := m.set m.active
def Me.shadow (m : Me) : Nat := 1 - m.active
def Me.shadowSet (m : Me) : WeightSet := m.set m.shadow

/-- A load has ended once the next ME command starts or its own command commits: LOADING becomes LOADED (R91, R125). -/
def settleSet (w : WeightSet) : WeightSet := if w.state = 1 then { w with state := 2 } else w
def Me.settle (m : Me) : Me := { m with set0 := settleSet m.set0, set1 := settleSet m.set1 }

/-- The swap of R91: the shadow set becomes active, the old active set becomes the EMPTY shadow. -/
def Me.swap (m : Me) : Me := { (m.putSet m.active {}) with active := m.shadow }

/-- The set that a load leaves LOADING. -/
def loadedSet (img : List Byte) : WeightSet :=
  let b := blockOf img
  { state := 1, image := img, block := b.fmt, bashaba := b.bashaba, nOut := b.outIdx.length }

/-- Weight column `n` of a set as a slice. -/
def WeightSet.columnSlice (w : WeightSet) (n : Nat) : Slice :=
  match w.kv with
  | some k => kvColumn w.image w.kvScales k.1 k.2.1 k.2.2.1 k.2.2.2 n
  | none => (blockOf w.image).columnSlice n

/-- The block of a set: a KV set has no outliers and is not a Bashaba block. -/
def WeightSet.theBlock (w : WeightSet) : Block :=
  match w.kv with
  | some _ => { fmt := 1, bashaba := false, outIdx := [], image := [] }
  | none => blockOf w.image

/-- A block on this set with activations of a format is eligible for sampling (R564): a weight image, both formats narrow. -/
def WeightSet.eligible (w : WeightSet) (fmt : Nat) : Bool :=
  w.kv.isNone && decide (3 ≤ fmt) && decide (fmt ≤ 8) && decide (3 ≤ w.block) && decide (w.block ≤ 8)

/-- Port grants of an image load, G_w (R116). -/
def imageGrants (fmt : Nat) : Nat := imageBytes fmt / 2048

/-! ## Accumulators -/

/-- Key of an accumulator element. -/
def accKey (bank row n : Nat) : Nat := (bank * 256 + row) * 256 + n
/-- A row of a bank. -/
def Me.row (m : Me) (bank row : Nat) : List Word := m.acc.readN (accKey bank row 0) 256
/-- Whether a row is in INT32 mode. -/
def Me.int32 (m : Me) (bank row : Nat) : Bool := Table.look false m.mode (bank * 256 + row)
/-- Store a row and its mode. -/
def Me.putRow (m : Me) (bank row : Nat) (int32 : Bool) (ws : List Word) : Me :=
  { m with acc := m.acc.writeN (accKey bank row 0) ws, mode := Table.put false m.mode (bank * 256 + row) int32 }
/-- A rescale pair. -/
def Me.pair (m : Me) (bank n : Nat) : Word × Word :=
  (m.rescale.read (bank * 512 + 2 * n), m.rescale.read (bank * 512 + 2 * n + 1))
/-- A row as a reader with or without rescale sees it (R111). -/
def Me.readRow (m : Me) (bank row : Nat) (rescale : Bool) : List Word :=
  let ws := m.row bank row
  if rescale then (List.range 256).map (fun n =>
    rescaled (m.int32 bank row) (ws.getD n 0) (m.pair bank n).1 (m.pair bank n).2)
  else ws

/-- Rows of a bank become undefined (R123). -/
def Me.loseRows (m : Me) (bank row0 n draw : Nat) : Me :=
  (List.range n).foldl (fun m r =>
    let free := (List.range 256).map (fun c => Config.freeLost draw (accKey bank (row0 + r) c))
    { m with acc := m.acc.writeN (accKey bank (row0 + r) 0) free }) m

/-! ## Starting -/

/-- The engine is gated or waking: a command other than PREWARM starts the wake and is held (R127). `none` when
awake. `up` is always-on time. -/
def meWake (c : CoreSt) (up : Nat) : Option CoreSt :=
  if c.me.waking then some c
  else if c.me.gated then some { c with me := { c.me with gated := false, waking := true, wakeAt := up + 300 } }
  else none

/-- A claim conflict holds the command; the wait is counted when it ends (R131). DESIGN CHOICE (log 136): while the engine is gated or
wakes, its head requests no claim, so those cycles are not in `ME_CLAIM_WAIT`. -/
def meClaimHold (c : CoreSt) (claims up : Nat) : Option CoreSt :=
  if claimConflict c.running claims then
    some { c with me := { c.me with claimSince := some (c.me.claimSince.getD up) } }
  else none

/-- The claim wait that ends now joins `ME_CLAIM_WAIT` (R131). -/
def meAccount (m : Me) (up : Nat) : Me :=
  { m with claimWait := satAdd m.claimWait (match m.claimSince with | some t => cyclesBetween t up | none => 0),
           claimSince := none }

/-- The checks of a load, in the order in which its accesses meet them: the tag of the barge that holds the header, the header
(R118), the tags of the barges behind it (R68). -/
def loadCheck (sp : Spad) (p : Plane) (bashaba : Bool) : Option Nat :=
  let bs := if p.tagmode = 0 then [] else p.barges (sp.pound p.pound)
  ((bs.take 1).findSome? (fun b => tagCheck1 sp p b.1 b.2)).orElse (fun _ =>
    if !headerOk (readPlane sp p) p.fmt bashaba then some Cause.meWeightHdr
    else (bs.drop 1).findSome? (fun b => tagCheck1 sp p b.1 b.2))

/-- Slots of the ME (class 0). -/
def meSlots (c : CoreSt) : Nat := wheelSlots c.spad.wheelLo c.spad.wheelHi 0

/-- ME_LOADW (R91, R116 to R118, R121, R122). -/
def meLoadw (c0 : CoreSt) (ws : List Word) (up : Nat) : EngRes :=
  let c := { c0 with me := c0.me.settle }
  let p := planeAt ws 2
  let job := dJob ws
  if !(meWordsOk ws (meFlagsAllowed 1) && planeOk ws 2 false && weightPlaneOk p && zeroWords ws 8 8) then .fault c Cause.meIllegal
  else if !planePound c.spad job p false then .fault c Cause.poundFault
  else
    match meWake c up with
    | some c => .hold c
    | none =>
      if c.me.shadowSet.state ≠ 0 then .fault c Cause.meShadowBusy
      else
        match loadCheck c.spad p (mBashaba ws) with
        | some f => .fault c f
        | none =>
          let img := readPlane c.spad p
          let u := 8 + max 256 (portCycles (meSlots c) (imageGrants p.fmt))
          let m := c.me.putSet c.me.shadow (loadedSet img)
          .run { c with me := meAccount m up } [.meCounts 0 0 (blockOf img).flushes u, .occ (drained c.spad p)] [] 0 true (withMaint u)

/-- Codes of activation row `r`. -/
def actCodes (sp : Spad) (p : Plane) (r : Nat) : List Nat := unpack p.fmt (readRow sp p r)

/-- The engine with its event counters set aside, and back: a command's events count at its commit (R325). -/
def Me.blank (m : Me) : Me := { m with nonfinite := 0, sat := 0, flush := 0 }
def Me.withCounts (m old : Me) : Me := { m with nonfinite := old.nonfinite, sat := old.sat, flush := old.flush }

/-- One activation row into its accumulator row. -/
def matmulRow (sp : Spad) (p : Plane) (w : WeightSet) (ws : List Word) (m : Me) (r : Nat) : Me :=
  let bank := mBank ws
  let row := mRow0 ws + r
  let codes := actCodes sp p r
  let old := m.row bank row
  let b := w.theBlock
  if b.bashaba then
    let es := (List.range 256).map (fun n => elementBashaba b codes (mAccum ws) (old.getD n 0) n)
    { (m.putRow bank row true (es.map (·.1))) with sat := satAdd m.sat (countTrue (es.map (·.2))) }
  else
    let scales := if fmtNarrow p.fmt then (readPound sp p.pound (bits (dw ws 14) 0 24 + 8 * r) 8).map (·.toNat) else []
    let a := slice p.fmt codes scales b.outIdx
    let outAct := if b.outIdx.isEmpty then []
      else (unpack 1 (readPound sp p.pound (bits (dw ws 15) 0 24 + 32 * r) 32)).map (decode 1)
    let wide := p.fmt ≤ 2 || b.fmt ≤ 2
    let es := (List.range 256).map (fun n =>
      elementAfter (w.columnSlice n) ((outAct.take b.outIdx.length).zip
        ((List.range b.outIdx.length).map (fun i => b.outlier i n))) a wide (mAccum ws) (old.getD n 0))
    { (m.putRow bank row false (es.map (·.1))) with
        nonfinite := satAdd m.nonfinite (es.map (·.2)).sum, flush := satAdd m.flush a.flush }

/-- The compute count C of R95 and R124. -/
def computeCycles (aFmt wFmt nOut m : Nat) : Nat :=
  if aFmt ≤ 2 ∨ wFmt ≤ 2 then 4 * m
  else if fmtBits aFmt = 4 ∧ fmtBits wFmt = 4 ∧ nOut = 0 then (m + 1) / 2
  else m

/-- ME_MATMUL (R103 to R109, R114, R120 to R124); `allowed` is the flag mask of the opcode. -/
def meMatmul (c0 : CoreSt) (ws : List Word) (up draw allowed : Nat) : EngRes :=
  let c := { c0 with me := c0.me.settle }
  let p := planeAt ws 2
  let nw := planeAt ws 8
  let job := dJob ws
  let rows := p.rows
  let bank := mBank ws
  let aso := bits (dw ws 14) 0 24
  let aoo := bits (dw ws 15) 0 24
  if !(meWordsOk ws allowed && planeOk ws 2 false && actPlaneOk p (mBashaba ws) &&
      (if mNextw ws then planeOk ws 8 false && weightPlaneOk nw else zeroWords ws 8 6) &&
      bits (dw ws 14) 24 8 == 0 && bits (dw ws 14) 0 5 == 0 && bits (dw ws 15) 24 8 == 0 &&
      bits (dw ws 15) 0 5 == 0 && decide (mRow0 ws + rows ≤ 256)) then .fault c Cause.meIllegal
  else
    let act := if mSwap ws then c.me.shadowSet else c.me.activeSet
    let narrowAct := fmtNarrow p.fmt && !mBashaba ws
    let pd := c.spad.pound p.pound
    if !(planePound c.spad job p false && (!narrowAct || pd.allows job false (aso + 8 * rows)) &&
        (act.nOut == 0 || act.state ≠ 2 || pd.allows job false (aoo + 32 * rows)) &&
        (!mNextw ws || planePound c.spad job nw false)) then .fault c Cause.poundFault
    else
      match meWake c up with
      | some c => .hold c
      | none =>
        match meClaimHold c (writeClaim bank) up with
        | some c => .hold c
        | none =>
          if act.state ≠ 2 then .fault c Cause.meNoWeights
          else
            let c := if mSwap ws then { c with me := c.me.swap } else c
            if mNextw ws ∧ c.me.shadowSet.state ≠ 0 then .fault c Cause.meShadowBusy
            else if mBashaba ws ≠ act.bashaba then .fault c Cause.meBashabaMismatch
            else if act.kv.isSome ∧ 2 < p.fmt then .fault c Cause.meKvOperand
            else if mAccum ws ∧ (List.range rows).any (fun r => c.me.int32 bank (mRow0 ws + r) != mBashaba ws) then
              .fault c Cause.meAccMode
            else
              match (tagCheck c.spad p).orElse (fun _ => if mNextw ws then loadCheck c.spad nw (mBashaba ws) else none) with
              | some f => .fault { c with me := c.me.loseRows bank (mRow0 ws) rows draw } f
              | none =>
                let img := if mNextw ws then readPlane c.spad nw else []
                let m := (List.range rows).foldl (matmulRow c.spad p act ws) c.me.blank
                let flush := m.flush.toNat + (if mNextw ws then (blockOf img).flushes else 0)
                let m1 := if mNextw ws then m.putSet m.shadow (loadedSet img) else m
                let g := ceilDiv (rows * (p.widthM1 + 1)) 64 +
                  (if narrowAct then ceilDiv (8 * rows) 2048 else 0) +
                  (if act.nOut = 0 then 0 else ceilDiv (32 * rows) 2048) +
                  (if mNextw ws then imageGrants nw.fmt else 0)
                let u := max (computeCycles p.fmt act.block act.nOut rows)
                  (max (portCycles (meSlots c) g) (if mNextw ws then 256 else 0))
                .run { c with me := meAccount (m1.withCounts c.me) up }
                  ([.meCounts m.nonfinite.toNat m.sat.toNat flush u, .occ (drained c.spad p),
                    .occ (if mNextw ws then drained c.spad nw else [])] ++
                   (if act.eligible p.fmt then [.eligible none] else []))
                  [] (writeClaim bank) true (withMaint (u + 24))

/-- One element of a drained row (R113): its code and whether it saturated. -/
def drainElem (fmt : Nat) (w : Word) : Nat × Bool :=
  if fmt ≤ 2 then encodeSat fmt (ofF32 w) else (w.toNat, false)

/-- ME_DRAIN (R111 to R113). DESIGN CHOICE (log 136): the modes of all its rows are checked before it reads, clears or writes any. -/
def meDrain (c0 : CoreSt) (ws : List Word) (up : Nat) : EngRes :=
  let c := { c0 with me := c0.me.settle }
  let p := planeAt ws 2
  let job := dJob ws
  let rows := p.rows
  let bank := mBank ws
  if !(meWordsOk ws (meFlagsAllowed 3) && planeOk ws 2 true && drainPlaneOk p (mRescale ws) && zeroWords ws 8 8 &&
      decide (mRow0 ws + rows ≤ 256)) then .fault c Cause.meIllegal
  else if !planePound c.spad job p true then .fault c Cause.poundFault
  else
    match meWake c up with
    | some c => .hold c
    | none =>
      match meClaimHold c (readClaim bank) up with
      | some c => .hold c
      | none =>
        let bad (r : Nat) : Bool :=
          let i := c.me.int32 bank (mRow0 ws + r)
          if p.fmt = 0x11 then !i else i && !mRescale ws
        if (List.range rows).any bad then .fault c Cause.meAccMode
        else
          match berthFull c.spad p with
          | some f => .stopped c f (planeAddrs (c.spad.pound p.pound) p)
          | none =>
            let out := (List.range rows).map (fun r =>
              (c.me.readRow bank (mRow0 ws + r) (mRescale ws)).map (drainElem p.fmt))
            let bs := out.flatMap (fun es => packElems p.fmt (es.map (·.1)))
            let sats := (out.map (fun es => countTrue (es.map (·.2)))).sum
            let m := if mClear ws then (List.range rows).foldl (fun m r =>
                { m with acc := m.acc.writeN (accKey bank (mRow0 ws + r) 0) (List.replicate 256 0) }) c.me
              else c.me
            let u := max rows (portCycles (meSlots c) (ceilDiv (rows * (p.widthM1 + 1)) 64))
            let st := storePlane c.spad p bs []
            .run { c with me := meAccount m up, spad := st.1 } (.meCounts 0 sats 0 u :: st.2) (planeAddrs (c.spad.pound p.pound) p) (readClaim bank) true
              (withMaint (u + 12))

/-- ME_LOADRS (R110). -/
def meLoadrs (c0 : CoreSt) (ws : List Word) (up : Nat) : EngRes :=
  let c := { c0 with me := c0.me.settle }
  let p := planeAt ws 2
  let bank := mBank ws
  if !(meWordsOk ws 0 && planeOk ws 2 false && p.fmt == 0 && p.rowsM1 == 0 && p.widthM1 == 63 && zeroWords ws 8 8)
  then .fault c Cause.meIllegal
  else if !planePound c.spad (dJob ws) p false then .fault c Cause.poundFault
  else
    match meWake c up with
    | some c => .hold c
    | none =>
      match meClaimHold c (writeClaim bank) up with
      | some c => .hold c
      | none =>
        match tagCheck c.spad p with
        | some f => .fault c f
        | none =>
          let m := { (meAccount c.me up) with
            rescale := c.me.rescale.writeN (bank * 512) (bytesToWords (readPlane c.spad p)) }
          .run { c with me := m } [.meCounts 0 0 0 16, .occ (drained c.spad p)] [] (writeClaim bank) true (withMaint 23)

/-- ME_ZERO (R107, R124). -/
def meZero (c0 : CoreSt) (ws : List Word) (up : Nat) : EngRes :=
  let c := { c0 with me := c0.me.settle }
  let rows := bits (dw ws 14) 0 8 + 1
  let bank := mBank ws
  if !(meWordsOk ws (meFlagsAllowed 5) && zeroWords ws 2 12 && bits (dw ws 14) 8 24 == 0 && zeroWords ws 15 1 &&
      decide (mRow0 ws + rows ≤ 256)) then .fault c Cause.meIllegal
  else
    match meWake c up with
    | some c => .hold c
    | none =>
      match meClaimHold c (writeClaim bank) up with
      | some c => .hold c
      | none =>
        let m := (List.range rows).foldl (fun m r =>
          m.putRow bank (mRow0 ws + r) (mBashaba ws) (List.replicate 256 0)) (meAccount c.me up)
        .run { c with me := m } [.meCounts 0 0 0 rows] [] (writeClaim bank) true (withMaint (rows + 4))

/-- ME_PREWARM (R127, R681): starts the wake; on an engine that is awake its commit restarts the idle count. During a wake it waits
like every other command. -/
def mePrewarm (c0 : CoreSt) (ws : List Word) (up : Nat) : EngRes :=
  let c := { c0 with me := c0.me.settle }
  if !(meWordsOk ws 0 && zeroWords ws 2 14) then .fault c Cause.meIllegal
  else if c.me.waking then .hold c
  else
    let m := meAccount c.me up
    .run { c with me := if m.gated then { m with gated := false, waking := true, wakeAt := up + 300 } else m }
      ([.meCounts 0 0 0 1] ++ (if m.gated then [] else [.meIdle])) [] 0 true 1

/-! ## Loading KV (07_attention_and_kv.md) -/

def kOrient (ws : List Word) : Bool := bitAt (dw ws 14) 29
def kInt4 (ws : List Word) : Bool := bitAt (dw ws 14) 28
def kDh (ws : List Word) : Nat := 64 * 2 ^ bits (dw ws 14) 26 2
def kValid (ws : List Word) : Nat := bits (dw ws 14) 0 9

/-- A plane cut to the bytes that a command reads of it. -/
def Plane.cut (p : Plane) (bytes : Nat) : Plane := { p with widthM1 := ceilDiv bytes 32 - 1 }

/-- The tag check of a plane of which only `bytes` are read (R250). -/
def tagCheckCut (sp : Spad) (p : Plane) (bytes : Nat) : Option Nat :=
  if bytes = 0 then none else tagCheck sp (p.cut bytes)

/-- The barges that a command drains of a plane of which it reads only `bytes` (R73, R250). -/
def drainedCut (sp : Spad) (p : Plane) (bytes : Nat) : List (Nat × Bool) :=
  if bytes = 0 then [] else drained sp (p.cut bytes)

/-- ME_LOADKV (R248 to R253). -/
def meLoadkv (c0 : CoreSt) (ws : List Word) (up : Nat) : EngRes :=
  let c := { c0 with me := c0.me.settle }
  let cp := planeAt ws 2
  let sc := planeAt ws 8
  let job := dJob ws
  let dh := kDh ws
  let codeB (n : Nat) : Nat := n * dh / (if kInt4 ws then 2 else 1)
  if !(meWordsOk ws 0 && planeOk ws 2 false && planeOk ws 8 false &&
      bits (dw ws 14) 30 2 == 0 && bits (dw ws 14) 9 17 == 0 && bits (dw ws 14) 26 2 != 3 && decide (kValid ws ≤ 256) &&
      zeroWords ws 15 1 && cp.fmt == (if kInt4 ws then 8 else 7) && cp.rowsM1 == 0 && cp.skew == 0 &&
      cp.rowBytes == codeB 256 && sc.fmt == 1 && sc.rowsM1 == 0 && sc.skew == 0 && sc.rowBytes == 256 * dh / 32)
  then .fault c Cause.meIllegal
  else if !(planePound c.spad job cp false && planePound c.spad job sc false) then .fault c Cause.poundFault
  else
    match meWake c up with
    | some c => .hold c
    | none =>
      if c.me.shadowSet.state ≠ 0 then .fault c Cause.meShadowBusy
      else
        match (tagCheckCut c.spad cp (codeB (kValid ws))).orElse
            (fun _ => tagCheckCut c.spad sc (kValid ws * dh / 32)) with
        | some f => .fault c f
        | none =>
          let w : WeightSet :=
            { state := 1, kv := some (kOrient ws, kInt4 ws, dh, kValid ws), image := readPlane c.spad cp,
              kvScales := readPlane c.spad sc, block := 1 }
          let flushes := ((List.range 256).map (fun n => (w.columnSlice n).flush)).sum
          let g := ceilDiv (codeB (kValid ws)) 2048 + ceilDiv (kValid ws * dh / 32) 2048
          let u := 8 + max 256 (portCycles (meSlots c) g)
          let m := c.me.putSet c.me.shadow w
          .run { c with me := meAccount m up }
            [.meCounts 0 0 flushes u, .occ (drainedCut c.spad cp (codeB (kValid ws))), .occ (drainedCut c.spad sc (kValid ws * dh / 32))]
            [] 0 true (withMaint u)

/-! ## The check commands (16_integrity_and_field_test.md R564 to R573) -/

def mChkId (ws : List Word) : Nat := bits (dw ws 14) 24 8
def mChkCohort (ws : List Word) : Nat := bits (dw ws 15) 24 5

/-- The descriptor without the check fields. -/
def withoutCheck (ws : List Word) : List Word :=
  setAt (setAt ws 14 (lo32 (bits (dw ws 14) 0 24))) 15 (lo32 (bits (dw ws 15) 0 24))

/-- The sums of step 4 of R104 for one activation row against a block: per column, one sum a pass; the exact column
sum of a Bashaba block (R571). -/
def rowSums (sp : Spad) (p : Plane) (b : Block) (ws : List Word) (r : Nat) : List Word :=
  let codes := actCodes sp p r
  if b.bashaba then
    (List.range 256).map (fun n =>
      BitVec.ofInt 32 (((codes.zip (b.column n)).map (fun q => signed 8 q.1 * signed 8 q.2)).foldl (· + ·) 0))
  else
    let scales := (readPound sp p.pound (bits (dw ws 14) 0 24 + 8 * r) 8).map (·.toNat)
    let a := slice p.fmt codes scales b.outIdx
    let outAct := if b.outIdx.isEmpty then []
      else (unpack 1 (readPound sp p.pound (bits (dw ws 15) 0 24 + 32 * r) 32)).map (decode 1)
    (List.range 256).flatMap (fun n =>
      let w := b.columnSlice n
      let outs := (outAct.take b.outIdx.length).zip ((List.range b.outIdx.length).map (fun i => b.outlier i n))
      if b.fmt ≤ 2 then
        [passSum a w a.hi w.hi outs, passSum a w a.hi w.lo [], passSum a w a.lo w.hi [], passSum a w a.lo w.lo []]
      else [passSum a w a.hi w.hi outs])

/-- The block CRC of a command (R571). -/
def blockCrc (sp : Spad) (p : Plane) (b : Block) (ws : List Word) : Word :=
  crc32c (wordsToBytes ((List.range p.rows).flatMap (rowSums sp p b ws)))

/-- Elements of the activation rows that their expansion flushes to zero (R99). -/
def blockFlushes (sp : Spad) (p : Plane) (b : Block) (ws : List Word) (rows : Nat) : Nat :=
  if b.bashaba then 0
  else ((List.range rows).map (fun r => (slice p.fmt (actCodes sp p r)
    ((readPound sp p.pound (bits (dw ws 14) 0 24 + 8 * r) 8).map (·.toNat)) b.outIdx).flush)).sum

/-- ME_MATMUL_C (R569 to R571): ME_MATMUL that also forms the block CRC. -/
def meMatmulC (c : CoreSt) (ws : List Word) (up draw : Nat) : EngRes :=
  let p := planeAt ws 2
  let ws' := withoutCheck ws
  if p.fmt ≤ 2 ∨ (mNextw ws ∧ (planeAt ws 8).fmt ≤ 2) ∨ bits (dw ws 15) 29 3 ≠ 0 then
    .fault { c with me := c.me.settle } Cause.meIllegal
  else
    match meMatmul c ws' up draw (meFlagsAllowed 2) with
    | .run c' es d cl np cy =>
      let set := if mSwap ws then c.me.settle.shadowSet else c.me.settle.activeSet
      let named := es.map (fun e => match e with | .eligible _ => .eligible (some (mChkCohort ws)) | e => e)
      .run c' (named ++ [.checkCrc true (dJob ws) (mChkCohort ws) (mChkId ws) (blockCrc c.spad p set.theBlock ws')
        (set.eligible p.fmt)]) d cl np cy
    | r => r

/-- ME_CHECK (R569 to R572): the partner's rebuild of a block against the check set. -/
def meCheck (c0 : CoreSt) (ws0 : List Word) (up : Nat) : EngRes :=
  let c := { c0 with me := c0.me.settle }
  let ws := withoutCheck ws0
  let p := planeAt ws 2
  let nw := planeAt ws 8
  let job := dJob ws
  let rows := p.rows
  let aso := bits (dw ws 14) 0 24
  let aoo := bits (dw ws 15) 0 24
  let pd := c.spad.pound p.pound
  if !(meWordsOk ws 36 && mNextw ws && planeOk ws 2 false && actPlaneOk p (mBashaba ws) && planeOk ws 8 false &&
      weightPlaneOk nw && decide (2 < p.fmt) && decide (2 < nw.fmt) && bits (dw ws 14) 0 5 == 0 &&
      bits (dw ws 15) 0 5 == 0 && bits (dw ws0 15) 29 3 == 0 && decide (mRow0 ws + rows ≤ 256)) then
    .fault c Cause.meIllegal
  else if !(planePound c.spad job p false && (mBashaba ws || pd.allows job false (aso + 8 * rows)) &&
      planePound c.spad job nw false) then .fault c Cause.poundFault
  else
    match meWake c up with
    | some c => .hold c
    | none =>
      match (loadCheck c.spad nw (mBashaba ws)).orElse (fun _ => tagCheck c.spad p) with
      | some f => .fault c f
      | none =>
        let img := readPlane c.spad nw
        let b := blockOf img
        if b.outIdx.isEmpty ∨ pd.allows job false (aoo + 32 * rows) then
          let g := ceilDiv (rows * (p.widthM1 + 1)) 64 + (if mBashaba ws then 0 else ceilDiv (8 * rows) 2048) +
            (if b.outIdx.isEmpty then 0 else ceilDiv (32 * rows) 2048)
          let u := 8 + max 256 (portCycles (meSlots c) (imageGrants nw.fmt)) +
            max (computeCycles p.fmt b.fmt b.outIdx.length rows) (portCycles (meSlots c) g)
          let m := { (meAccount c.me up) with checkSet := { loadedSet img with state := 2 } }
          .run { c with me := m }
            [.meCounts 0 0 (b.flushes + blockFlushes c.spad p b ws rows) u, .occ (drained c.spad p), .occ (drained c.spad nw),
             .checkCrc false job (mChkCohort ws0) (mChkId ws0) (blockCrc c.spad p b ws) true] [] 0 true
            (withMaint (u + 24))
        else .fault c Cause.poundFault

end Sys2Proof.Machine
end

