-- ==== Sys2Proof/Machine/WeirOps.lean ====
section
/-! DEFINITION. Token buckets and the waits of barges for their tokens (09_queues_jobs_partitions.md R339, R344, `WEIR_STALL_x`). -/

namespace Sys2Proof.Machine

/-- Reference capacity of a weir key in bytes per nanosecond; 1/256 of it is the unit of RATE (R344). -/
def weirRef : Nat → Nat
  | 0 => 4600 | 1 => 4600 | 2 => 1230 | _ => 50

/-- The bucket at time `up`: RATE × reference per nanosecond in 1/256 bytes, up to BURST (R344). -/
def Weir.refill (w : Weir) (key up : Nat) : Weir :=
  { w with level := min (w.burst * 4096 * 256) (w.level + w.rate * weirRef key * (up - w.at_)), at_ := up }

/-- When the bucket first holds `n` bytes; never, when it gains none. -/
def Weir.readyAt (w : Weir) (key n : Nat) : Option Nat :=
  if n * 256 ≤ w.level then some w.at_
  else if w.rate = 0 then none
  else some (w.at_ + ceilDiv (n * 256 - w.level) (w.rate * weirRef key))

/-- The bucket that a request draws on. -/
def BargeReq.key (r : BargeReq) : Nat := if r.weir = 3 then 3 + r.link else r.weir

/-- Until when the partition's requests at a weir have lacked tokens, seen at time `up`. Device traffic draws on no bucket (R345). -/
def Part.shortUntil (q : Part) (weir up : Nat) : Nat :=
  (q.reqs.filter (fun r => r.weir == weir && decide (r.job < 96))).foldl (fun a r =>
    max a (min up (((Table.look {} q.weirs r.key).readyAt r.key r.bytes).getD up))) q.stallAt

/-- `WEIR_STALL_x` counted up to time `up`: the cycles in which a barge waited for tokens. Every change of a request or a bucket counts
up to its own time first, so the requests have not changed since `stallAt`. -/
def Part.settleStall (q : Part) (up : Nat) : Part :=
  { q with stallAt := up,
           stall := (List.range 4).map (fun x => satAdd (q.stall.getD x 0) (cyclesBetween q.stallAt (q.shortUntil x up))) }

/-- Change the requests at a partition's arbiters. -/
def State.modReqs (s : State) (p : Nat) (f : List BargeReq → List BargeReq) : State :=
  s.modPart p (fun q => { q.settleStall s.time.up with reqs := f q.reqs })

/-! ## Moves of the device: the restore of a takeover, maintenance (R340, R345) -/

/-- The `core` of a request that no core made. -/
def noCore : Nat := 24

/-- The requester of a maintenance activity's barges. -/
def actWho (id : Nat) : Nat := 65536 + id

/-- The request for the next barge of a move. -/
def Move.req (m : Move) (up : Nat) : List BargeReq :=
  (m.todo.take 1).map (fun n => { weir := m.weir, job := m.who, core := noCore, cls := 0, since := up, age := 0, bytes := n, link := 0,
                                  index := m.sub })

/-- The requests of a move. -/
def BargeReq.ofMove (r : BargeReq) (who weir sub : Nat) : Bool := r.core == noCore && r.job == who && r.weir == weir && r.index == sub
def Move.is (m : Move) (who weir sub : Nat) : Bool := m.who == who && m.weir == weir && m.sub == sub

/-- A move ends or is given up. -/
def State.dropMove (s : State) (p who weir sub : Nat) : State :=
  (s.modReqs p (fun l => l.filter (fun r => !r.ofMove who weir sub))).modPart p (fun q =>
    { q with moves := q.moves.filter (fun m => !m.is who weir sub) })

/-- A move begins, in place of an earlier one of the same kind: its first barge waits at the arbiter. -/
def State.addMove (s : State) (p : Nat) (m : Move) : State :=
  let s1 := s.dropMove p m.who m.weir m.sub
  if m.todo = [] then s1 else (s1.modReqs p (· ++ m.req s.time.up)).modPart p (fun q => { q with moves := q.moves ++ [m] })

/-- Barges of a move that are still to come. -/
def Part.left (q : Part) (who weir sub : Nat) : Nat :=
  ((q.moves.find? (fun m => m.is who weir sub)).map (·.todo.length)).getD 0

/-- A barge of a move has been granted: the next one asks. -/
def State.moveGranted (s : State) (p : Nat) (r : BargeReq) : State :=
  match (s.part p).moves.find? (fun m => m.is r.job r.weir r.index) with
  | none => s
  | some m =>
    let m' : Move := { m with todo := m.todo.drop 1 }
    if m'.todo = [] then s.dropMove p m.who m.weir m.sub
    else (s.modReqs p (· ++ m'.req s.time.up)).modPart p (fun q => { q with moves := q.moves.map (fun x => if x == m then m' else x) })

end Sys2Proof.Machine
end

