-- ==== Sys2Proof/Machine/JobOps.lean ====
section
/-! DEFINITION. Queues, locks and jobs: enqueuing and popping (R321), lock signals (R275 to R287), result records (R524 to
R526), job kills (R328, R735), restoring locks (R307), abandoning a chunk task (R460). -/

namespace Sys2Proof.Machine

/-! ## Queues -/

/-- The head notes when it reached the head (R294). -/
def fixHead (up : Nat) : List QEntry → List QEntry
  | [] => []
  | e :: es => { e with headAt := some (e.headAt.getD up) } :: es

/-- MQ has become empty: the 2 µs of R127 begin. -/
def CoreSt.noteIdle (c c' : CoreSt) (up : Nat) : CoreSt :=
  if c.queue 0 ≠ [] ∧ c'.queue 0 = [] then { c' with me := { c'.me with idleAt := up } } else c'

/-- Drop the head. -/
def CoreSt.pop (c : CoreSt) (q up : Nat) : CoreSt := c.noteIdle (c.setQueue q (fixHead up (c.queue q).tail)) up
/-- Append a descriptor, numbered in issue order. -/
def CoreSt.push (c : CoreSt) (q up : Nat) (e : QEntry) : CoreSt :=
  { c.setQueue q (fixHead up (c.queue q ++ [{ e with stamp := c.issued }])) with issued := c.issued + 1 }
/-- Keep the queued descriptors that a test selects. -/
def CoreSt.keep (c : CoreSt) (up : Nat) (f : QEntry → Bool) : CoreSt :=
  c.noteIdle ([0, 1, 2, 3].foldl (fun c q => c.setQueue q (fixHead up ((c.queue q).filter f))) c) up

/-- JOB of a queued descriptor. -/
def QEntry.job (e : QEntry) : Nat := dJob e.words
/-- OPCODE of a queued descriptor. -/
def QEntry.op (e : QEntry) : Nat := dOp e.words

/-- The head of a queue leaves it without having run, or runs at last: the cycles that it waited there for a claim (R131) or for
the summary FIFO (R200) join their counters. -/
def CoreSt.endClaimWait (c : CoreSt) (up : Nat) : CoreSt :=
  { c with me := { c.me with
      claimWait := satAdd c.me.claimWait (match c.me.claimSince with | some t => cyclesBetween t up | none => 0),
      claimSince := none } }
def CoreSt.endSumWait (c : CoreSt) (up : Nat) : CoreSt :=
  { c with ve := { c.ve with
      sumWait := satAdd c.ve.sumWait (match c.ve.sumSince with | some t => cyclesBetween t up | none => 0),
      sumSince := none } }

/-! ## Locks -/

/-- Occupancy (08 "Counters and their arithmetic"). -/
def Lock.occ (l : Lock) : Nat := (l.fill - l.drain).toNat

/-- The counters after signals are added: `fill` to FILL, `drain` to DRAIN (R275). -/
def Lock.add (l : Lock) (fill drain : Nat) : Lock :=
  { l with fill := l.fill + BitVec.ofNat 32 fill, drain := l.drain + BitVec.ofNat 32 drain }

/-- The range rule of R276. -/
def Lock.inRange (l : Lock) : Bool := decide (l.occ ≤ l.depth)

/-- A lock that takes signals from other cores and chips (R286). -/
def Lock.takesRemote (l : Lock) : Bool := l.valid && l.remote && !l.quar

/-- The lock of a cohort's task before a re-run (R307). -/
def Lock.restore (l : Lock) : Lock :=
  let l1 := if l.rest < l.occ then l.add 0 (l.occ - l.rest) else l.add (l.rest - l.occ) 0
  { l1 with depth := l.depth0 }

/-- A lock that its task left as found (R304). -/
def Lock.asFound (l : Lock) : Bool := l.occ == l.rest && l.depth == l.depth0

/-! ## Result records -/

/-- The host bus address of a result entry. -/
def Stream.resultAddr (st : Stream) (resultBytes : Nat) : Nat :=
  st.adm.resultBase.toNat + st.resNext * ((64 + resultBytes + 63) / 64 * 64)

/-- Header words of a result record (14 "Results"). -/
def recordWords (handle : Word) (status seq len t0 commit : Nat) (phase replay rerun gap final : Bool) (tag : DWord) : List Word :=
  [handle, pack [(status, 16), (seq % 65536, 0)],
    pack [(b2n phase, 31), (b2n replay, 30), (b2n rerun, 29), (b2n gap, 28), (b2n final, 27), (len, 0)], 0,
    lo32 t0, hi32 t0, lo32 commit, hi32 commit, lo32 tag.toNat, hi32 tag.toNat] ++ List.replicate 6 0

/-- Write one record into a stream's result ring; a full ring discards it and reports `RESULT_OVERRUN` (R526). -/
def State.record (s : State) (i status : Nat) (k : Stepping) (payload : List Byte) : State :=
  match s.stream i with
  | none => s
  | some st =>
    let rb := (s.job st.adm.job).image.shape.resultBytes
    if !s.ringsOpen ∨ s.pair.standing.isSome then s
    else if ringRoom st.adm.resultLog2 st.resHead st.resNext = 0 then
      (s.modStream i (fun (t : Stream) => { t with discarded := satAdd t.discarded 1 })).faultEvent Cause.resultOverrun
        (some (partOfJob st.adm.job)) (some st.adm.job) 0 { handle := st.adm.handle }
    else
      let ws := recordWords st.adm.handle status k.seq payload.length k.t0 s.time.now st.resPhase k.replay k.rerun k.gap
        k.final k.tag
      let last := st.resNext + 1 == 2 ^ st.adm.resultLog2
      (s.emit (.record st.adm.fn st.resNext (st.resultAddr rb) ws payload)).modStream i (fun t =>
        { t with resNext := if last then 0 else t.resNext + 1, resPhase := if last then !t.resPhase else t.resPhase })

/-- Fire the vectors of streams that name one, once each (R524). -/
def State.fireVectors (s : State) (is : List Nat) : State :=
  let vs := (is.filterMap (fun i => (s.stream i).map (fun st => (st.adm.fn, st.adm.vector)))).filter (fun v => v.2 ≠ 0)
  s.each vs.eraseDups (fun s v => s.msix v.1 v.2)

/-- Open streams of a job. -/
def State.streamsOf (s : State) (j : Nat) : List Nat :=
  (OTable.entries s.streams).filterMap (fun e => if e.2.adm.job = j then some e.1 else none)

/-- Streams of one cohort of a job. -/
def State.streamsIn (s : State) (j k : Nat) : List Nat :=
  (OTable.entries s.streams).filterMap (fun e => if e.2.adm.job = j ∧ e.2.adm.cohort = k then some e.1 else none)

/-- The KV summary of a stream index is empty. -/
def State.clearSlots (s : State) (i : Nat) : State :=
  { s with kvSlots := s.kvSlots.filter (fun e => e.1 / 5120 != i), kvSent := Table.put [] s.kvSent i [] }

/-- A stream ends: its index is free, its summary and its retained inputs go. -/
def State.dropStream (s : State) (i : Nat) : State :=
  { (s.setStream i none).clearSlots i with kvInputs := s.kvInputs.filter (fun e => e.1 / 16 != i) }

/-- A stream ends with `STREAM_LOST` (R35, R525). -/
def State.loseStream (s : State) (i : Nat) : State :=
  match s.stream i with
  | none => s
  | some st =>
    if st.state = .opening then s.dropStream i else
    let k : Stepping := { seq := st.nextSeq, t0 := 0, tag := 0, gap := false, final := true, replay := false, rerun := false }
    ((s.record i St.streamLost k []).fireVectors [i]).dropStream i

/-! ## Standing down (R583) -/

/-- A wharf whose outputs the chip drives. -/
def Wharf.drives (w : Wharf) : Bool := w.state == .running && !w.hiZ

/-- Step 2 and 3 of R583, once no output is driven: STAND_DOWN on every UP twin link, then YIELDED. Streams are the twin's
from then on. -/
def State.finishStandDown (s : State) : State :=
  match s.pair.standing with
  | none => s
  | some cause =>
    if s.wharves.any (fun e => e.2.drives) then s
    else
      let s1 := s.each s.twinUp (fun s l => s.sendOn l [.standDown s.pair.epoch.toNat cause])
      let s2 := s1.answerWaits (fun w => w.kind == .handover) (fun _ => (St.wrongState, 6, []))
      { s2 with streams := [], pair := { s2.pair with
        state := .yielded, standing := none, handover := none, gave := false, kept := OTable.entries s2.streams } }

/-- Stand down for a fault of partition `p` (R583): records and data sends stop at once; wharf outputs stop at their next frame opening. The
partition's cores are scanned at once (R590). -/
def State.standDown (s : State) (cause p : Nat) : State :=
  if s.pair.state = .mirrored then
    { s with pair := { s.pair with standing := some cause }, integ := { s.integ with afterStand := some { part := p } } }.finishStandDown
  else s

/-! ## Kills -/

/-- What a killed command leaves undefined: its destination bytes, its accumulator rows, its bank's rescale table, the
set it was loading (R123, R206, R236). -/
def killRunning (draw : Nat) (c : CoreSt) (r : Running) : CoreSt :=
  let ws := r.entry.words
  let c1 := c.loseBytes draw r.dest
  if r.queue ≠ 0 then c1
  else
    let op := dOp ws
    let me := if op = 0x02 ∨ op = 0x08 then c1.me.loseRows (mBank ws) (mRow0 ws) (planeAt ws 2).rows draw
      else if op = 0x05 then c1.me.loseRows (mBank ws) (mRow0 ws) (bits (dw ws 14) 0 8 + 1) draw
      else if op = 0x04 then
        let lost := (List.range 512).map (Config.freeLost draw)
        { c1.me with rescale := c1.me.rescale.writeN (mBank ws * 512) lost }
      else c1.me
    let drop (w : WeightSet) : WeightSet := if w.state = 1 then {} else w
    { c1 with me := { me with set0 := drop me.set0, set1 := drop me.set1 } }

/-- Stop started commands that a test selects (R327). A commit that waits for the summary FIFO waits no longer when its command is
among them (R200). -/
def CoreSt.stop (c : CoreSt) (draw up : Nat) (f : Running → Bool) : CoreSt :=
  let c1 := if (c.running.find? (fun r => r.queue == 2)).any f then c.endSumWait up else c
  { (c.running.filter f).foldl (killRunning draw) c1 with running := c.running.filter (fun r => !f r) }

/-- Credits that have not left with data come home at once (R84, R329). -/
def CoreSt.takeBack (c : CoreSt) (f : Send → Bool) : CoreSt :=
  (c.sends.filter f).foldl (fun c x =>
    if x.asked then { c with spad := { c.spad with
      credits := Table.upd {} c.spad.credits x.credit (fun e => { e with avail := min e.count (e.avail + 1) }) } } else c)
    { c with sends := c.sends.filter (fun x => !f x) }

/-- Credit entries of a job: cleared once every credit is home (R84, R328). -/
def clearCredits (j : Nat) (cr : Table Credit) : Table Credit :=
  cr.filter (fun e => !(e.2.valid && e.2.job == j && e.2.avail == e.2.count))

/-- Whether every credit of a job has returned. -/
def CoreSt.creditsHome (c : CoreSt) (j : Nat) : Bool :=
  !c.spad.credits.any (fun e => e.2.valid && e.2.job == j && decide (e.2.avail < e.2.count))

/-- Free a job's pounds, flight-table entries and operand-cache window (R328 step 6). -/
def CoreSt.freeJob (c : CoreSt) (j : Nat) : CoreSt :=
  let rg := Table.look (0, 0, 0, 0) c.ve.ranges j
  { c with
    spad := { c.spad with pounds := c.spad.pounds.filter (fun e => !(e.2.valid && e.2.owner == j)),
                          credits := clearCredits j c.spad.credits },
    ve := { c.ve with ranges := Table.put (0, 0, 0, 0) c.ve.ranges j (0, 0, 0, 0),
                      flights := c.ve.flights.filter (fun e => !(decide (rg.1 ≤ e.1) && decide (e.1 < rg.1 + rg.2.1))) } }

/-- The job that waits for a credit: that of a send under way whose next barge has none, else that of DQ's head (R82, R296). -/
def CoreSt.creditWaiter (c : CoreSt) : Option Nat :=
  match c.sends.find? (fun x => !x.asked) with
  | some x => some x.job
  | none => (c.queue 3).head?.map QEntry.job

/-- The waits at the heads of the queues once the descriptors and commands of job `j` go: its claim wait and its credit wait end. -/
def CoreSt.endWaits (c : CoreSt) (j up : Nat) : CoreSt :=
  let c1 := if ((c.queue 0).head?.map QEntry.job) = some j then c.endClaimWait up else c
  if c.creditWaiter = some j then { c1 with creditWait := none } else c1

/-- Steps 1 to 5 of R328 on one core. -/
def CoreSt.killJob (c : CoreSt) (j draw up : Nat) : CoreSt :=
  let c0 := (c.endWaits j up).takeBack (fun x => x.job == j)
  let c1 := ((c0.stop draw up (fun r => r.job == j)).keep up (fun e => e.job != j))
  { c1 with
    locks := Table.mapV {} c1.locks (fun _ l =>
      if l.valid && l.owner == j then { l with valid := false, quar := true, killedAt := up } else l),
    overflows := c1.overflows.filter (fun o => o.job != j),
    spad := { c1.spad with credits := clearCredits j c1.spad.credits },
    retained := c1.retained.filter (fun r => dJob r.entry.words != j) }

/-! ## Remote writes of stopped commands (R84, R325) -/

/-- Remote writes and commit flits that a core receives from the stopped commands which a test on sender, job and stamp selects:
what is in flight is discarded when it lands, and the flits never come. -/
def CoreSt.discard (d : CoreSt) (f : Nat → Nat → Nat → Bool) : CoreSt :=
  { d with
    arrivals := d.arrivals.map (fun p => if f p.src p.job p.cmd then { p with dead := true } else p),
    commits := d.commits.filter (fun k => !f k.src k.job k.cmd) }

/-- The bytes of the destination plane of a stopped DM_SEND_CORE (R325). -/
def remoteDest (d : CoreSt) (r : Running) : List Nat :=
  let p := (planeAt r.entry.words 8).flat
  if r.queue = 3 ∧ dOp r.entry.words = 0x03 then planeAddrs (d.spad.pound p.pound) p else []

/-- What the stopped commands of core `c` leave at the other cores and at the arbiters of their partition: no request, no commit
flit, no barge that still lands. -/
def State.dropRemote (s : State) (c draw : Nat) (f : Running → Bool) : State :=
  let rs := (s.core c).running.filter f
  let cmds := rs.map (fun r => r.entry.stamp)
  let s1 := (s.modReqs (partOfCore c) (fun l => l.filter (fun x => !(x.core == c && cmds.contains x.cmd)))).modCore c (fun k =>
    { k with linkSends := k.linkSends.filter (fun x => !cmds.contains x.cmd) })
  s1.each (rs.filter (fun r => r.queue == 3 && (dOp r.entry.words == 0x03 || dOp r.entry.words == 0x04))) (fun s r =>
    s.modCore (dw r.entry.words 14 % 32) (fun d =>
      (d.discard (fun src _ cmd => src == c && cmd == r.entry.stamp)).loseBytes draw (remoteDest d r)))

/-- RETRACT to each destination of a job's retained entries on a core that no token has confirmed; all its entries are released (R458,
R459). -/
def State.retract (s : State) (c j : Nat) (reason depth : Nat) : State :=
  let rs := (s.core c).retained.filter (fun r => dJob r.entry.words == j && !r.confirmed)
  let keys := (rs.map (fun r => (r.dest, r.cohort, r.chunk))).eraseDups
  let s1 := s.modCore c (fun k => { k with retained := k.retained.filter (fun r => dJob r.entry.words != j) })
  s1.each keys (fun s k =>
    let s' := { s with pair := { s.pair with retractTx := satAdd s.pair.retractTx 1 } }
    s'.sendTo k.1 [.retract k.1 k.2.1 k.2.2 s.time.chip reason depth])

/-- RETRACT on both cores of a job's partition. -/
def State.retractJob (s : State) (j reason depth : Nat) : State :=
  s.each (coresOf (partOfJob j)) (fun s c => s.retract c j reason depth)

/-- A command that waits for a job. -/
def Wait.onJob (w : Wait) (j : Nat) : Bool :=
  match w.kind with
  | .commit _ (some k) _ _ => k == j
  | .start k => k == j
  | _ => false

/-- A stall moves the deadline clock of every head of a core by its length (R334). -/
def CoreSt.stallHeads (c : CoreSt) (d : Nat) : CoreSt :=
  { c with queues := Table.mapV [] c.queues (fun _ es =>
      match es with
      | e :: t => { e with headAt := e.headAt.map (· + d) } :: t
      | [] => []) }

/-- A switch ends: its stall is counted on both cores and moves the deadline clocks (R334, `SWITCH_CYCLES`). -/
def State.endStall (s : State) (p : Nat) (w : Switch) : State :=
  match w.parkedAt with
  | none => s.modPart p (fun q => { q with switch := none })
  | some t =>
    (s.each (coresOf p) (fun s c => s.modCore c (fun k => k.stallHeads (s.time.up - t)))).modPart p (fun q => { q with
      switch := none, switchCycles := satAdd q.switchCycles (2 * cyclesBetween t s.time.up) })

/-- A switch in which a job that ends takes part (R337): when the victim goes, the incoming job continues; when the
incoming job goes, the switch ends and its JOB_PREEMPT is answered. -/
def State.switchAfterKill (s : State) (j cause : Nat) : State :=
  let p := partOfJob j
  match (s.part p).switch with
  | none => s
  | some w =>
    if w.victim = some j then s.modPart p (fun q => { q with switch := some { w with victim := none } })
    else if w.incoming = j then
      (s.endStall p w).answerWaits (fun x => x.kind == .switch p) (fun _ => (St.partitionFault, cause, []))
    else s

/-- A kill after which the job's streams recover from the twin's mirror (R328 "Why"): by a fault, while the pair is MIRRORED. DESIGN
CHOICE (log 148): the one way that the spec gives to the twin is the stand-down of R583. -/
def State.recovers (s : State) (j : Nat) (cause : Option Nat) (silent : Bool) : Bool :=
  !silent && cause.isSome && s.pair.state == .mirrored && !(s.streamsOf j).isEmpty

/-- Streams of a killed job: they stay until the stand-down gives them to the twin, and otherwise end with `STREAM_LOST` (R35); after
a Function Level Reset they end without a record (R667). -/
def State.endStreams (s : State) (j : Nat) (recovers silent : Bool) : State :=
  if recovers then s
  else s.each (s.streamsOf j) (fun s i => if silent then s.dropStream i else s.loseStream i)

/-- Every credit of a job is home on both cores of its partition. -/
def State.creditsHome (s : State) (j : Nat) : Bool := (coresOf (partOfJob j)).all (fun c => (s.core c).creditsHome j)

/-- Step 6 of R328: pounds, flight-table entries and operand-cache window go once every credit of the job has returned. -/
def State.freePounds (s : State) (j : Nat) : State :=
  if s.creditsHome j then
    { s.each (coresOf (partOfJob j)) (fun s c => s.modCore c (fun k => k.freeJob j)) with freeing := s.freeing.filter (· != j) }
  else { s with freeing := if s.freeing.contains j then s.freeing else s.freeing ++ [j] }

/-- DESIGN CHOICE (log 138): an ID that is assigned again has its last credits home by then: R84 returns them within 35 + 6h cycles of
the kill. -/
def State.endFreeing (s : State) (j : Nat) : State :=
  if s.freeing.contains j then
    let s1 := s.each (List.range 24) (fun s c => s.modCore c (fun k => { k with arrivals := k.arrivals.filter (fun p => p.job != j) }))
    let s2 := s1.each (coresOf (partOfJob j)) (fun s c => s.modCore c (fun k => ({ k with
      returns := k.returns.filter (fun r => r.2 != j),
      spad := { k.spad with credits := k.spad.credits.filter (fun e => !(e.2.valid && e.2.job == j)) } } : CoreSt).freeJob j))
    { s2 with freeing := s2.freeing.filter (· != j) }
  else s

/-- The check table entries and block numbers of selected cohorts of a job are freed (R565, R574). -/
def State.freeChecks (s : State) (j : Nat) (f : Nat → Bool) : State :=
  let s1 := s.modCheck (partOfJob j) (fun q => { q with
    checks := q.checks.filter (fun e => !(e.job == j && f e.cohort)), skips := q.skips.filter (fun e => !(e.1 == j && f e.2.1)) })
  s1.each (coresOf (partOfJob j)) (fun s c => s.modCore c (fun v =>
    { v with me := { v.me with blocks := v.me.blocks.filter (fun e => !(e.1 / 64 == j && f (e.1 % 64))) } }))

/-- What both a kill and the freeing of a LOADED job clear. -/
def State.releaseJob (s : State) (j : Nat) : State :=
  let p := partOfJob j
  let d := s.draw
  let sd := d.2.each (coresOf p) (fun s c => s.dropRemote c d.1 (fun r => r.job == j))
  let s0 := sd.each (List.range 24) (fun s c => s.modCore c (fun k => k.discard (fun src job _ => partOfCore src == p && job == j)))
  let s1 := (s0.each (coresOf p) (fun s c => s.modCore c (fun k => k.killJob j d.1 s.time.up))).freePounds j
  let s2 := s1.freeChecks j (fun _ => true)
  let s3 := (s2.modReqs p (fun l => l.filter (fun r => r.job != j))).modPart p (fun q => { q with moves := q.moves.filter (fun m => m.who != j) })
  let s4 := { s3 with
    ranges := s3.ranges.filter (fun r => r.job != j),
    integ := { s3.integ with suspicions := s3.integ.suspicions.filter (fun x => x.job != j) },
    wharves := Table.mapV {} s3.wharves (fun _ w =>
      { w with closed := w.closed.filter (fun k => k.job != j), tx := w.tx.filter (fun k => k.job != j),
               bufs := w.bufs.filter (fun b => b.1 / 32 != j) }) }
  s4.setJob j {}

/-- Kill or free a job (R328, R735): `cause` none is JOB_KILL, which reports by its reply. -/
def State.killJob (s : State) (j : Nat) (cause : Option Nat) (detail : Nat) (a : FaultAt) (silent : Bool) : State :=
  let st := (s.job j).state
  let p := partOfJob j
  if st = .free then s
  else
    let counts := st == .running || st == .parked
    let s1 := s.retractJob j 3 0
    let s2 := s1.endStreams j (s.recovers j cause silent) silent
    let s3 := s2.releaseJob j
    let s4 := if counts then s3.modPart p (fun q => { q with killed := q.killed + 1 }) else s3
    let s5 := s4.switchAfterKill j (cause.getD 0)
    let s6 := if silent then { s5 with waits := s5.waits.filter (fun w => !w.onJob j) }
      else s5.answerWaits (fun w => w.onJob j) (fun _ => (St.partitionFault, cause.getD 0, []))
    match cause with
    | some k =>
      let s7 := s6.faultEvent k (some p) (some j) detail a
      if s.recovers j cause silent then s7.standDown k p else s7
    | none => s6

/-- Every job of a partition is killed or freed, in ascending ID (R735). -/
def State.killPartition (s : State) (p cause detail : Nat) (a : FaultAt) : State :=
  s.each (jobsOf p) (fun s j => s.killJob j (some cause) detail a false)

/-! ## Applying lock signals (R281 to R287) -/

/-- The sum of the amounts of one kind for one lock. -/
def amountFor (gs : List Signal) (lock kind : Nat) : Nat :=
  ((gs.filter (fun g => g.lock == lock && g.kind == kind)).map (·.amount)).sum

/-- Signals that take effect on lock `i`, with those of the same cycle that broke its range: applied when all together keep it, and
else held to the cycle's end for R287, which kills `job` (R285). -/
def CoreSt.applySignals (k : CoreSt) (i fill drain job : Nat) : CoreSt :=
  let mine := k.overflows.filter (fun o => o.lock == i)
  let rest := k.overflows.filter (fun o => o.lock != i)
  let l := (k.lock i).add (fill + (mine.map (·.fill)).sum) (drain + (mine.map (·.drain)).sum)
  if l.inRange then { k.setLock i l with overflows := rest }
  else { k with overflows := k.overflows ++ [{ lock := i, fill := fill, drain := drain, job := job }] }

/-- The cycle ends: signals that still break their lock's range are not applied, and their job is killed (R285, R287). -/
def State.endCycle (s : State) : State :=
  s.each (List.range 24) (fun s c =>
    match (s.core c).overflows with
    | [] => s
    | os => (s.modCore c (fun k => { k with overflows := [] })).each os (fun s o =>
        s.killJob o.job (some Cause.lockRange) o.lock { core := some c } false))

/-- Signals from the issuing core take effect together; a range fault kills the issuing job (R281, R285, R287). A lock that
is not valid takes no signal. -/
def State.localSignals (s : State) (c job : Nat) (gs : List Signal) : State :=
  s.each (gs.map (·.lock)).eraseDups (fun s i =>
    if !((s.core c).lock i).valid then s
    else s.modCore c (fun k => k.applySignals i (amountFor gs i 1) (amountFor gs i 2) job))

/-- Signals from another core or chip: strays are discarded and reported, a range fault kills the lock's owner
(R282, R285 to R287). -/
def State.remoteSignals (s : State) (c : Nat) (gs : List Signal) : State :=
  s.each (gs.map (·.lock)).eraseDups (fun s i =>
    let l := (s.core c).lock i
    if !l.takesRemote then
      s.each (gs.filter (fun g => g.lock == i)) (fun s _ =>
        (s.modCore c (fun k => { k with lockStray := satAdd k.lockStray 1 })).faultEvent Cause.lockStray
          (some (partOfCore c)) none i { core := some c })
    else s.modCore c (fun k => k.applySignals i (amountFor gs i 1) (amountFor gs i 2) l.owner))

/-- Worst-placement hop count of two logical cores (R20). -/
def hops (a b : Nat) : Nat := (if coreRow a ≤ coreRow b then coreRow b - coreRow a else coreRow a - coreRow b) + 6

/-- A signal leaves core `c` for another core of the chip, where it lands 14 + 3h cycles later (R282). -/
def State.nocSignal (s : State) (c : Nat) (g : Signal) : State :=
  s.modCore g.core (fun k => { k with signals := k.signals ++ [(s.time.up + nsOf (14 + 3 * hops c g.core), g)] })

/-! ## Chunk tasks -/

/-- The cohort record of a job. -/
def Job.cohort (j : Job) (k : Nat) : Cohort := Table.look {} j.cohorts k
def Job.setCohort (j : Job) (k : Nat) (v : Cohort) : Job := { j with cohorts := Table.put {} j.cohorts k v }
def State.modCohort (s : State) (j k : Nat) (f : Cohort → Cohort) : State :=
  s.modJob j (fun b => b.setCohort k (f (b.cohort k)))

/-- Restore the locks of a cohort's set on both cores (R307). -/
def State.restoreLocks (s : State) (j k : Nat) : State :=
  s.each (coresOf (partOfJob j)) (fun s c => s.modCore c (fun core =>
    { core with locks := Table.mapV {} core.locks (fun _ l =>
        if l.valid && l.owner == j && l.cohort == k then l.restore else l) }))

/-- The program counter that a placement names for a cohort's re-run on a core. -/
def Job.rerunEntry (b : Job) (k : Nat) : Nat := ((b.placement.rerun.find? (fun e => e.1 == k)).map (·.2)).getD 0

/-- The two cores' local number of a place that an image names by core 0 or 1. -/
def Job.coreAt (j core : Nat) : Nat := 2 * partOfJob j + core % 2

/-- A command adds nothing to a staging tally when it commits. -/
def Running.untallied (r : Running) (pound off : Nat) : Running :=
  { r with effects := r.effects.filter (fun e => match e with | .tally p o _ _ _ => !(p == pound && o == off) | _ => true) }

/-- Clear a cohort's staging tallies: a re-run starts with them clear, and a command of the earlier run that still commits adds
nothing to them (R156). -/
def State.clearStaging (s : State) (j k : Nat) : State :=
  s.each ((s.job j).image.tensors.filter (·.tallies)) (fun s t =>
    match t.staging[k]? with
    | some off => s.modCore (Job.coreAt j t.core) (fun c =>
        { c with
          spad := writePound c.spad t.pound off (List.replicate (256 + 4 * max t.learned.length t.calibrated.length) 0),
          running := c.running.map (fun r => if r.job = j then r.untallied t.pound off else r) })
    | none => s)

/-- Abandon a chunk task (R460, R579): running non-pre-emptible commands commit, the rest are killed; queued
descriptors go; locks restored; the control cores restart at the re-run entry. -/
def State.abandon (s : State) (j k : Nat) : State :=
  let p := partOfJob j
  let d := s.draw
  let gone (r : Running) : Bool := r.job == j && !r.nonpre
  let sd := d.2.each (coresOf p) (fun s c => s.dropRemote c d.1 gone)
  let s1 := sd.each (coresOf p) (fun s c => s.modCore c (fun core =>
    let stamps := (core.running.filter gone).map (fun r => r.entry.stamp)
    let core := (((core.endWaits j s.time.up).takeBack (fun x => stamps.contains x.cmd)).stop d.1 s.time.up gone).keep s.time.up
      (fun e => e.job != j)
    { core with cc := { core.cc with pc := BitVec.ofNat 64 ((s.job j).rerunEntry k), stall := .none, halted := false } }))
  let s2 := ((s1.clearStaging j k).restoreLocks j k).freeChecks j (fun n => n == k)
  (s2.modCohort j k (fun h => { h with phase := .computing, rerun := true, abandoned := true })).modTele j
    (fun t => { t with reruns := t.reruns + 1 })

/-- Every RUNNING job that has a cohort in a given state. -/
def State.runningCohorts (s : State) : List (Nat × Nat) :=
  (List.range 96).flatMap (fun j =>
    if (s.job j).state = .running then (s.job j).cohorts.map (fun e => (j, e.1)) else [])

/-- A cohort's chunk number modulo 2^16. -/
def Cohort.seq (h : Cohort) : Nat := h.chunk % 65536

/-- The pipeline's T0 of a chunk, as its retained sends told it (R30); 0 while none has come. -/
def Cohort.pipeT0 (h : Cohort) (chunk : Nat) : Nat := ((h.pipes.find? (fun e => e.1 == chunk)).map (·.2)).getD 0

end Sys2Proof.Machine
end

