-- ==== Sys2Proof/Machine/PairOps.lean ====
section
/-! DEFINITION. Pair operations shared by many steps (12_pairs_and_takeover.md): cohort numbering across the twins, the mirror
area's addresses (R430), sending a cohort's mirror (R432), fencing (R441), standing down (R583). -/

namespace Sys2Proof.Machine

/-! ## Cohorts of a job on this chip

Cohorts 0 to n − 1 are the chip's own, n the number of cohorts of the paired schedule; a survivor numbers its twin's
cohort k as n + k in its solo schedule. -/

/-- Own cohorts of a job. -/
def Job.own (b : Job) : Nat := b.image.cohorts.length

/-- The cohort's number seen from the other twin. -/
def swapCohort (n k : Nat) : Nat := if k < n then k + n else k - n

/-- The compiled windows and rows of a cohort, by the schedule that carries it. -/
def Job.spec (b : Job) (k : Nat) : CohortSpec :=
  if k < b.own then b.image.cohorts.getD k default else b.image.soloCohorts.getD k default

/-- The plane of the chip (R405, R734). -/
def State.plane (s : State) : Nat := if s.time.chipValid then s.time.chip % 2 else 0

/-- Whether a step with origin `t` runs the solo schedule (R447): after a takeover, from D + 100 µs on. -/
def State.soloAt (s : State) (t : Nat) : Bool := s.pair.state == .solo && decide (s.pair.decisionAt + 100000 < t)

/-- The plane of the chip whose cohorts the twin's are (R734): after a takeover that of the chip that failed. -/
def State.twinPlane (s : State) : Nat :=
  s.pair.carriedPlane.getD (if s.pair.state = .unbound then 1 - s.plane else s.pair.twinChip % 2)

/-- The compiled windows of cohort `k` in a step with origin `t`. -/
def State.specOf (s : State) (b : Job) (k t : Nat) : CohortSpec :=
  if k < b.own ∧ !s.soloAt t then b.image.cohorts.getD k default else b.image.soloCohorts.getD k default

/-- The chunk period in nanoseconds. -/
def Job.period (b : Job) : Nat := b.image.shape.periodMs * 1000000

/-- The offset of a cohort within the period (R734), in the solo schedule or in the paired schedule of the chip that it is own to: own
cohorts on the chip's plane, the twin's on the twin's. -/
def State.offsetOf (s : State) (b : Job) (k : Nat) (solo : Bool) : Nat :=
  let c := if solo then b.image.soloCohorts.getD k default else b.image.cohorts.getD (k % b.own) default
  if (if k < b.own then s.plane else s.twinPlane) = 0 then c.offset0 else c.offset1

/-- The last time at or before `t` that lies at offset `o` of its period. -/
def gridAt (period o t : Nat) : Nat := (t + period - o % period) / period * period + o % period - period

/-- The last step of a survivor that may run under the paired schedule: at D + 100 µs (R447). -/
def State.pairedEnd (s : State) : Nat := s.pair.decisionAt + 100000

/-- The last boundary of a cohort at or before schedule time `t`: after a takeover one of the solo schedule, once the first such later
than D + 100 µs has come (R447). -/
def State.boundary (s : State) (b : Job) (k t : Nat) : Nat :=
  let solo := gridAt b.period (s.offsetOf b k true) t
  if b.period = 0 then t
  else if s.soloAt solo then solo
  else gridAt b.period (s.offsetOf b k false) (if s.pair.state = .solo then min t s.pairedEnd else t)

/-- The next boundary of a cohort after schedule time `t`. -/
def State.nextBoundary (s : State) (b : Job) (k t : Nat) : Nat :=
  let paired := gridAt b.period (s.offsetOf b k false) t + b.period
  if s.pair.state ≠ .solo ∨ (b.period ≠ 0 ∧ paired ≤ s.pairedEnd) then (if b.period = 0 then t else paired)
  else if b.period = 0 then t
  else gridAt b.period (s.offsetOf b k true) (max t s.pairedEnd) + b.period

/-! ## Rows of streams (R228, R331) -/

/-- The core that holds a job's committed state. -/
def placeCore (j : Nat) (pl : RowPlaces) : Nat := 2 * partOfJob j + pl.core % 2

/-- The committed state of a row. -/
def State.rowState (s : State) (j row : Nat) : List Byte :=
  let pl := (s.job j).image.places
  readPound (s.core (placeCore j pl)).spad pl.pound (pl.state + row * pl.stateStride) pl.stateStride

/-- Write the committed state of a row. -/
def State.setRowState (s : State) (j row : Nat) (bs : List Byte) : State :=
  let pl := (s.job j).image.places
  s.modCore (placeCore j pl) (fun c =>
    { c with spad := writePound c.spad pl.pound (pl.state + row * pl.stateStride) (bs.take pl.stateStride) })

/-- A row table entry. -/
def State.rowEntry (s : State) (j row : Nat) : Nat :=
  let pl := (s.job j).image.places
  (poundWord (s.core (placeCore j pl)).spad pl.pound (pl.rowTable + 4 * row)).toNat

/-- Bytes of one chunk of host intake. -/
def StreamShape.intakeBytes (h : StreamShape) : Nat := h.n * h.cIn * h.b

/-- Write a row's intake berth. -/
def State.writeIntake (s : State) (j row : Nat) (bs : List Byte) : State :=
  let pl := (s.job j).image.places
  s.modCore (placeCore j pl) (fun c =>
    { c with spad := writePound c.spad pl.pound (pl.intake + row * pl.intakeStride) (bs.take pl.intakeStride) })

/-- A row's intake berth. -/
def State.readIntake (s : State) (j row n : Nat) : List Byte :=
  let pl := (s.job j).image.places
  readPound (s.core (placeCore j pl)).spad pl.pound (pl.intake + row * pl.intakeStride) (min n pl.intakeStride)

/-! ## The mirror area (R430) -/

def jobSlotAddr (j b : Nat) : Nat := 0x400000 + j * 0x20000 + b * 0x10000
def relayAddr (i r : Nat) : Nat := 0x1000000 + i * 0x40000 + r * 0x20000
def stateSlotAddr (i b : Nat) : Nat := 0x11000000 + i * 0x100000 + b * 0x80000
def summarySlotAddr (i b : Nat) : Nat := stateSlotAddr i b + 0x40000
def summaryAddr (i : Nat) : Nat := 0x51000000 + i * 0xE00000

/-- A mirror entry. -/
def State.mirrorEntry (s : State) (i : Nat) : MirrorEntry := Table.look {} s.pair.mirror i
def State.modEntry (s : State) (i : Nat) (f : MirrorEntry → MirrorEntry) : State :=
  { s with pair := { s.pair with mirror := Table.upd {} s.pair.mirror i f } }
/-- The current job slot of a twin job. -/
def State.jobSlotOf (s : State) (j : Nat) : Nat := Table.look 0 s.pair.jobSlot j

/-- The (job, cohort) pairs of the mirror's valid entries, in rising order of stream index. -/
def State.twinCohorts (s : State) : List (Nat × Nat) :=
  (s.pair.mirror.filterMap (fun e =>
    if e.2.valid then e.2.stream.map (fun st => (st.adm.job, st.adm.cohort)) else none)).eraseDups

/-! ## Sending mirrors (R432) -/

/-- Bytes cut into barges, the last filled with zeros. -/
def toBarges (bs : List Byte) : List (List Byte) :=
  (List.range ((bs.length + 4095) / 4096)).map (fun i =>
    let b := (bs.drop (4096 * i)).take 4096
    b ++ List.replicate (4096 - b.length) 0)

/-- A RUN with its barges on the mirror VC; `run` has everything but the barge count. -/
def mirrorRun (run : Run) (bs : List Byte) : List LinkMsg :=
  let gs := toBarges bs
  [.run { run with barges := gs.length }] ++
    gs.map (fun b => .barge 1 run.xfer b { crc := crc32c b, v := true, slen := 64 })

/-- A base RUN on the mirror VC. -/
def State.mirrorHead (s : State) (xfer : Nat) (d : RunDest) (cohort chunk : Nat) : Run :=
  { vc := 1, xfer := xfer, srcChip := s.time.chip, srcCore := 0x1F, destChip := s.pair.twinChip, barges := 0, dest := d,
    retain := false, cohort := cohort, chunk := chunk, t0 := 0, epoch := s.pair.epoch.toNat }

/-- Cohorts that carry streams, of every RUNNING or PARKED job. -/
def State.servedCohorts (s : State) : List (Nat × Nat) :=
  ((OTable.entries s.streams).map (fun e => (e.2.adm.job, e.2.adm.cohort))).eraseDups

/-! ## Pair traffic (R426) -/

/-- Pair traffic counts only from the bound twin at the epoch that it last announced. -/
def State.epochOk (s : State) (epoch : Nat) : Bool := s.pair.state != .unbound && optIs s.pair.twinEpoch epoch
/-- Discarded pair traffic. -/
def State.stale (s : State) : State := { s with pair := { s.pair with stale := satAdd s.pair.stale 1 } }

/-- `EVT_MIRROR_LOST` (R561). -/
def State.mirrorLost (s : State) (status : Nat) (evs : List Word) : State :=
  s.event Ev.mirrorLost none none status 0 ([lo32 s.pair.twinChip] ++ evs)

/-! ## Fencing and standing down -/

/-- Every wharf output goes hi-Z. -/
def State.hiZAll (s : State) : State :=
  { s with wharves := Table.mapV {} s.wharves (fun _ w => { w with hiZ := true }) }

/-- The fence of R441, with its event on the towpath. -/
def State.fence (s : State) : State :=
  if s.pair.state = .unbound then { s with pair := { s.pair with isolated := true, hbOutOk := false } }
  else if s.pair.state = .fenced then s
  else
    ({ s with pair := { s.pair with state := .fenced, isolated := true, fences := satAdd s.pair.fences 1 } }.hiZAll).faultEvent
      Cause.pairFenced none none 0 {}


end Sys2Proof.Machine
end

