-- ==== Sys2Proof/Machine/CheckOps.lean ====
section
/-! DEFINITION. The check table and what follows from a check (16_integrity_and_field_test.md R574 to R587). -/

namespace Sys2Proof.Machine

/-- The jobs of a check group: the job, and RUNNING jobs whose images its image names (R576). -/
def State.checkGroup (s : State) (j : Nat) : List Nat :=
  (List.range 96).filter (fun g => g == j ||
    ((s.job g).state == .running && (s.job j).image.checkGroup.contains (s.job g).image.index && partOfJob g == partOfJob j))

/-- A retained send of one chunk task. -/
def Retained.ofTask (r : Retained) (j k chunk : Nat) : Bool := dJob r.entry.words == j && r.own == (k, chunk)

/-- The destinations of retained sends: chip, cohort and chunk as the sends name them, each once. -/
def destsOf (rs : List Retained) : List (Nat × Nat × Nat) := (rs.map (fun r => (r.dest, r.cohort, r.chunk))).eraseDups

/-- RETRACT for the retained sends of one chunk task on a core that no token has confirmed (R458, R459). -/
def State.retractTask (s : State) (c j k chunk reason depth : Nat) : State :=
  let mine (r : Retained) : Bool := r.ofTask j k chunk && !r.confirmed
  let dests := destsOf ((s.core c).retained.filter mine)
  let s1 := s.modCore c (fun v => { v with retained := v.retained.filter (fun r => !mine r) })
  s1.each dests (fun s d =>
    ({ s with pair := { s.pair with retractTx := satAdd s.pair.retractTx 1 } }).sendTo d.1
      [.retract d.1 d.2.1 d.2.2 s.time.chip reason depth])

/-- RETRACT of a chunk on both cores of the job's partition. -/
def State.retractChunk (s : State) (j k chunk reason depth : Nat) : State :=
  s.each (coresOf (partOfJob j)) (fun s c => s.retractTask c j k chunk reason depth)

/-- The check rate in force for a cohort's chunk (R566): that of its last commit, and before it the partition's. -/
def State.rateOf (s : State) (j k : Nat) : Nat := (((s.job j).cohort k).rate).getD (s.check (partOfJob j)).rate

/-- Whether block `i` of a cohort's chunk is sampled at a rate code (R565). -/
def sampledAt (rate i chunk job : Nat) : Bool :=
  let hit (n : Nat) : Bool := (i + 37 * chunk + 11 * job) % n == 0
  match rate with
  | 1 => hit 256 | 2 => hit 64 | 3 => hit 16 | 4 => hit 4 | _ => false

/-- The number that the next eligible block of a cohort's chunk task takes on a core (R565), and its count. -/
def State.blockNo (s : State) (c j k : Nat) : Nat := Table.look 0 (s.core c).me.blocks (j * 64 + k)
def State.countBlock (s : State) (c j k : Nat) : State :=
  s.modCore c (fun v => { v with me := { v.me with blocks := Table.put 0 v.me.blocks (j * 64 + k) (s.blockNo c j k + 1) } })

/-- The check of a block is wanted (R565, R580): its number is sampled, or its first run failed. -/
def State.sampled (s : State) (j k i id : Nat) : Bool :=
  sampledAt (s.rateOf j k) i ((s.job j).cohort k).seq j ||
  s.integ.suspicions.any (fun x => x.job == j && x.cohort == k && x.id == id)

/-- A job still has a check or a retained send of the cohort queued or running on its partition. -/
def State.checksAhead (s : State) (j k : Nat) : Bool :=
  let mine (ws : List Word) (q : Nat) : Bool :=
    dJob ws == j && ((q == 0 && (dOp ws == 8 || dOp ws == 9) && mChkCohort ws == k) ||
      (q == 3 && dOp ws == 0x0C && bitAt (dw ws 14) 12 && bits (dw ws 15) 10 6 == k))
  (coresOf (partOfJob j)).any (fun c =>
    (s.core c).running.any (fun r => mine r.entry.words r.queue) ||
    [0, 3].any (fun q => ((s.core c).queue q).any (fun e => mine e.words q)))

/-- A chunk task has issued all its eligible blocks and made all its retained sends, as its schedule counts them. -/
def State.taskIssued (s : State) (j k : Nat) : Bool :=
  let p := partOfJob j
  let spec := (s.job j).spec k
  let sent := ((coresOf p).map (fun c => (s.core c).retained.countP (fun r => r.ofTask j k ((s.job j).cohort k).seq))).sum
  (coresOf p).all (fun c => decide (spec.blocks.getD (c % 2) 0 ≤ s.blockNo c j k)) && decide (spec.sends ≤ sent)

/-- CHECK_TOKEN to every destination of the chunk's retained sends, once: when every check of the chunk has passed and no block, check or
retained send is still to come (R577). DEDUCED (log 150): a chunk that consumed provisional inputs waits for their tokens, as R458 lets
no chunk be confirmed and retracted. -/
def State.sendTokens (s : State) (j k : Nat) : State :=
  let p := partOfJob j
  let h := (s.job j).cohort k
  let cs := (s.check p).checks.filter (fun e => e.job == j && e.cohort == k)
  let due (r : Retained) : Bool := r.ofTask j k h.seq && !r.confirmed
  let dests := destsOf ((coresOf p).flatMap (fun c => (s.core c).retained.filter due))
  if cs.all (·.passed) ∧ !s.checksAhead j k ∧ s.taskIssued j k ∧ !h.tokensDue.any (fun e => e.1 == h.seq) then
    let s1 := s.each (coresOf p) (fun s c => s.modCore c (fun v => { v with retained := v.retained.map (fun r =>
      if due r then { r with confirmed := true } else r) }))
    s1.each dests (fun s d => s.sendTo d.1 [.checkToken d.1 d.2.1 d.2.2 s.time.chip (s.rateOf j k) (min 255 cs.length)])
  else s

/-- The tokens of a job's cohorts in compute. -/
def State.tokensOf (s : State) (j : Nat) : State :=
  s.each (((s.job j).cohorts.filter (fun e => e.2.phase == .computing)).map (·.1)) (fun s k => s.sendTokens j k)

/-- A first-run check fails (R579): the chunk task is abandoned in the whole group, retracted, and re-run. -/
def State.checkFailure (s : State) (p : Nat) (e : Check) (late : Bool) : State :=
  let x : Suspicion := { part := p, job := e.job, cohort := e.cohort, id := e.id, late := late, dup := e.dup.getD 0,
                         orig := e.orig.getD 0, block := e.block, origCore := e.origCore, dupCore := e.dupCore }
  let s1 := { s with integ := { s.integ with suspicions := s.integ.suspicions ++ [x] } }
  s1.each (s.checkGroup e.job) (fun s g =>
    (s.retractChunk g e.cohort ((s.job g).cohort e.cohort).seq 1 0).abandon g e.cohort)

/-- A transient verdict against a core (R581, R587): counted, recorded, reported; the third within 24 h makes the core
SUSPECT. -/
def State.transientVerdict (s : State) (x : Suspicion) (core : Nat) (crcs : List Nat) : State :=
  let recent := ((s.healthOf core).transientAt.filter (fun t => decide (s.time.up < t + dayNs))) ++ [s.time.up]
  let s1 := s.modHealth core (fun h => { h with transient := satAdd h.transient 1, transientAt := recent, passes := 0 })
  let s2 := if 3 ≤ recent.length then s1.markHealth core 1 1 else s1
  let s3 := s2.signature 1 Cause.checkTransient (some core) 1 crcs (some x.job) (x.cohort, ((s.job x.job).cohort x.cohort).seq)
  s3.event Ev.fault (some x.part) (some x.job) Cause.checkTransient x.block ({ core := some core : FaultAt }).words

/-- A permanent verdict against a core (R582): it becomes SUSPECT; the chip stands down when MIRRORED, after which both cores are scanned (R590), and otherwise the
group's jobs are killed. -/
def State.permanentVerdict (s : State) (x : Suspicion) (core : Nat) (crcs : List Nat) : State :=
  let was := (s.healthOf core).state
  let s1 := s.modHealth core (fun h => { h with permanent := satAdd h.permanent 1 })
  let s2 := s1.markHealth core 0 (if was = 0 then 1 else 2)
  let s3 := s2.signature 2 Cause.checkPermanent (some core) 1 crcs (some x.job) (x.cohort, ((s.job x.job).cohort x.cohort).seq)
  let s4 := s3.event Ev.fault (some x.part) (some x.job) Cause.checkPermanent x.block ({ core := some core : FaultAt }).words
  if s4.pair.state = .mirrored then
    (s4.each (s.checkGroup x.job) (fun s g => s.modCohort g x.cohort (fun h => { h with phase := .idle }))).standDown
      Cause.checkPermanent x.part
  else s4.each (s.checkGroup x.job) (fun s g => s.killJob g (some Cause.checkPermanent) x.block { core := some core } false)

/-- The re-run's check of a suspected block gives the verdict of R580: `mismatch` or `late`, or a pass with its CRC. The block's number is
the one that the re-run's check has, where its original has committed. -/
def State.verdict (s : State) (x0 : Suspicion) (e : Check) (mismatch late : Bool) (crc : Word) : State :=
  let x : Suspicion := { x0 with block := if e.orig.isSome then e.block else x0.block }
  let s1 := { s with integ := { s.integ with suspicions := s.integ.suspicions.erase x0 } }
  let crcs := [x.orig.toNat, x.dup.toNat, crc.toNat]
  if mismatch then s1.permanentVerdict x x.origCore crcs
  else if late then s1.permanentVerdict x x.dupCore crcs
  else if x.late then s1.transientVerdict x x.dupCore crcs
  else if crc = x.dup then s1.transientVerdict x x.origCore crcs
  else s1.transientVerdict x x.dupCore crcs

/-- The suspicion about a check's block, if its first run failed. -/
def State.suspicionOf (s : State) (e : Check) : Option Suspicion :=
  s.integ.suspicions.find? (fun x => x.job == e.job && x.cohort == e.cohort && x.id == e.id)

/-- A check is complete (R574). -/
def State.checkComplete (s : State) (p : Nat) (e : Check) (a b : Word) : State :=
  if a = b then
    let s1 := s.modCheck p (fun q => { q with passed := q.passed + 1, checks := q.checks.map (fun f =>
      if f.job = e.job ∧ f.cohort = e.cohort ∧ f.id = e.id then { e with passed := true } else f) })
    match s1.suspicionOf e with
    | some x => s1.verdict x e false false a
    | none => s1
  else
    let s1 := s.modCheck p (fun q => { q with mismatch := satAdd q.mismatch 1 })
    match s1.suspicionOf e with
    | some x => s1.verdict x e true false a
    | none => s1.checkFailure p e false

/-- A block's check is not wanted: no CRC of it stands in the table (R565). -/
def State.skipCheck (s : State) (p job cohort id : Nat) : State :=
  s.modCheck p (fun q => { q with
    checks := q.checks.filter (fun e => !(e.job == job && e.cohort == cohort && e.id == id)),
    skips := (q.skips ++ [(job, cohort, id)]).eraseDups })

/-- A block CRC enters the check table (R574). -/
def State.enterCrc (s : State) (core : Nat) (original : Bool) (job cohort id block : Nat) (crc : Word) : State :=
  let p := partOfCore core
  let cs := (s.check p).checks
  match cs.find? (fun e => e.job == job && e.cohort == cohort && e.id == id) with
  | none =>
    if 64 ≤ cs.length then s.killJob job (some Cause.checkFull) id { core := some core } false
    else
      let e : Check := { job := job, cohort := cohort, id := id, since := s.time.up, block := block,
                         orig := if original then some crc else none, dup := if original then none else some crc,
                         origCore := if original then core else 4 * p + 1 - core,
                         dupCore := if original then 4 * p + 1 - core else core }
      s.modCheck p (fun q => { q with checks := q.checks ++ [e] })
  | some e =>
    let e' : Check := if original then { e with orig := some crc, block := block } else { e with dup := some crc }
    let s1 := s.modCheck p (fun q => { q with checks := q.checks.map (fun f => if f = e then e' else f) })
    match e'.orig, e'.dup with
    | some a, some b => if e.passed then s1 else s1.checkComplete p e' a b
    | _, _ => s1

/-- The block CRC of an ME_MATMUL_C or ME_CHECK at its commit (R565, R574). The original's block number decides whether the check is
wanted; a check that commits first stands in the table until then (DEDUCED, log 150). -/
def State.checkCrc (s : State) (core : Nat) (original : Bool) (job cohort id : Nat) (crc : Word) (eligible : Bool) : State :=
  let p := partOfCore core
  let i := s.blockNo core job cohort - 1
  if original then
    if eligible && s.sampled job cohort i id then s.enterCrc core true job cohort id i crc else s.skipCheck p job cohort id
  else if (s.check p).skips.contains (job, cohort, id) then s
  else s.enterCrc core false job cohort id 0 crc

/-- A check that is incomplete 40 µs after its first CRC is late (R575, R579, R580). -/
def State.checkLate (s : State) (p : Nat) (e : Check) : State :=
  let s1 := s.modCheck p (fun q => { q with late := satAdd q.late 1 })
  match s1.suspicionOf e with
  | some x => s1.verdict x e false true 0
  | none => s1.checkFailure p e true

end Sys2Proof.Machine
end

