-- ==== Sys2Proof/Machine/RealMath.lean ====
section
/-! DEFINITION. The exactly rounded results of the functions of R182 (05_vector_engine.md) and the test of an error bound against
them. Real numbers stand here as whole multiples of 2^−320 (`real`); every series runs until its terms are below that. -/

namespace Sys2Proof.Machine

/-- Fraction bits of a real number in this file. -/
def realBits : Nat := 320

/-- 1 as a real number. -/
def realOne : Nat := 2 ^ realBits

/-- Product and quotient of real numbers. -/
def realMul (a b : Nat) : Nat := a * b / realOne
def realDiv (a b : Nat) : Nat := a * realOne / b

/-- The integer square root: its bits below 2^k from the highest down, those above being `r`. -/
def sqrtBits (n : Nat) : Nat → Nat → Nat
  | 0, r => r
  | k + 1, r => sqrtBits n k (if (r + 2 ^ k) * (r + 2 ^ k) ≤ n then r + 2 ^ k else r)
def intSqrt (n : Nat) : Nat := sqrtBits n (blen n / 2 + 1) 0

/-- Σ x^k / k! from the term `t` of index `k` on. -/
def expSeries (x : Nat) : Nat → Nat → Nat → Nat
  | 0, _, _ => 0
  | f + 1, k, t => t + expSeries x f (k + 1) (realMul t x / (k + 1))

/-- e^x for a real x below 1. -/
def realExp (x : Nat) : Nat := expSeries x 110 0 realOne

/-- Σ z^(2k+1) / (2k+1) with signs `alt`, where `t` is the power of index `k`: artanh z, or arctan z with alternating signs. -/
def arcSeries (alt : Bool) (z : Nat) : Nat → Nat → Int → Int
  | 0, _, _ => 0
  | f + 1, k, t =>
    (if alt && k % 2 == 1 then -(t / (2 * k + 1)) else t / (2 * k + 1)) +
      arcSeries alt z f (k + 1) (t * z / realOne * z / realOne)

/-- artanh and arctan of a real number of at most 1/3. -/
def realArtanh (z : Nat) : Nat := (arcSeries false z 120 0 z).toNat
def realArctan (z : Nat) : Nat := (arcSeries true z 120 0 z).toNat

/-- ln 2 = 2 artanh (1/3), and π by Machin's formula. -/
def realLn2 : Nat := 2 * realArtanh (realOne / 3)
def realPi : Nat := 16 * realArctan (realOne / 5) - 4 * realArctan (realOne / 239)

/-- A positive quotient a / b × 2^e as a value that rounds to FP32 as the quotient does: 64 bits or more, and a last bit that says
whether the division left a remainder. -/
def quotVal (neg : Bool) (a b : Nat) (e : Int) : Val :=
  let k := blen b + 64
  let q := a * 2 ^ k / b
  .fin neg (2 * q + (if a * 2 ^ k % b = 0 then 0 else 1)) (e - k - 1)

/-- A real number × 2^e as a value. -/
def realVal (neg : Bool) (x : Nat) (e : Int) : Val := .fin neg x (e - realBits)

/-- Whole part (toward −∞) and fraction of m × 2^e with sign, the fraction as a real number. -/
def splitVal (neg : Bool) (m : Nat) (e : Int) : Int × Nat :=
  let z : Int := if 0 ≤ e + realBits then (m : Int) * 2 ^ (e + realBits).toNat else (m : Int) / 2 ^ (-(e + realBits)).toNat
  let z := if neg then -z else z
  (z / (realOne : Int), (z % (realOne : Int)).toNat)

/-- 2^x for a finite x from −200 to 200, correctly rounded. -/
def exactExp2 (neg : Bool) (m : Nat) (e : Int) : Word :=
  let p := splitVal neg m e
  toF32 (realVal false (realExp (realMul p.2 realLn2)) p.1)

/-- log₂ x for a positive finite x. -/
def exactLog2 (m : Nat) (e : Int) : Word :=
  let k := blen m - 1
  let f := m * realOne / 2 ^ k
  let l := realDiv (2 * realArtanh (realDiv (f - realOne) (f + realOne))) realLn2
  let z : Int := (e + k) * (realOne : Int) + l
  toF32 (realVal (decide (z < 0)) z.natAbs 0)

/-- 1 / x. -/
def exactRcp (neg : Bool) (m : Nat) (e : Int) : Word := toF32 (quotVal neg 1 m (-e))

/-- 1 / √x for a positive x. -/
def exactRsqrt (m : Nat) (e : Int) : Word :=
  let m2 := if e % 2 = 0 then m else 2 * m
  let e2 := if e % 2 = 0 then e else e - 1
  let k := blen m2 + 64
  let r := intSqrt (2 ^ (2 * k) / m2)
  toF32 (.fin false (2 * r + (if r * r * m2 = 2 ^ (2 * k) then 0 else 1)) (-(e2 / 2) - k - 1))

/-- e^−y for a real y ≥ 0 below 256, with its exponent of two. -/
def realExpNeg (y : Nat) : Nat × Nat :=
  let n := y / realLn2 + 1
  (realExp (n * realLn2 - y), n)

/-- |x| as a real number, for |x| below 256. -/
def realAbs (m : Nat) (e : Int) : Nat :=
  if 0 ≤ e + realBits then m * 2 ^ (e + realBits).toNat else m / 2 ^ (-(e + realBits)).toNat

/-- 1 / (1 + e^−x); beyond ±200 it rounds to 0 or 1. -/
def exactSigmoid (neg : Bool) (m : Nat) (e : Int) : Word :=
  if (Val.fin false 200 0).lt (.fin false m e) then (if neg then 0 else 0x3F800000)
  else
    let t := realExpNeg (realAbs m e)
    let one := realOne * 2 ^ t.2
    toF32 (quotVal false (if neg then t.1 else one) (one + t.1) 0)

/-- tanh x; beyond ±100 it rounds to ±1. -/
def exactTanh (neg : Bool) (m : Nat) (e : Int) : Word :=
  if (Val.fin false 100 0).lt (.fin false m e) then (if neg then 0xBF800000 else 0x3F800000)
  else
    let t := realExpNeg (2 * realAbs m e)
    let one := realOne * 2 ^ t.2
    toF32 (quotVal neg (one - t.1) (one + t.1) 0)

/-- Σ x^(2k+1) / (1 · 3 ⋯ (2k+1)) from the term `t` of index `k` on. -/
def phiSeries (x2 : Nat) : Nat → Nat → Nat → Nat
  | 0, _, _ => 0
  | f + 1, k, t => t + phiSeries x2 f (k + 1) (realMul t x2 / (2 * k + 3))

/-- Φ(x) for a real x from 0 to 15: ½ + φ(x) × Σ x^(2k+1) / (1 · 3 ⋯ (2k+1)), the expansion of erf. -/
def realPhi (x : Nat) : Nat :=
  let t := realExpNeg (realMul x x / 2)
  let den := intSqrt (2 * realPi * realOne)
  realOne / 2 + realDiv (realMul t.1 (phiSeries (realMul x x) 900 0 x) / 2 ^ t.2) den

/-- x × Φ(x); beyond ±15 it rounds to x or to −0. -/
def exactGelu (neg : Bool) (m : Nat) (e : Int) : Word :=
  if (Val.fin false 15 0).lt (.fin false m e) then (if neg then 0x80000000 else toF32 (.fin false m e))
  else
    let p := realPhi (realAbs m e)
    toF32 (.fin neg (m * (if neg then realOne - p else p)) (e - realBits))

/-- One unit in the last place of a finite FP32 result. -/
def ulpOf (v : Val) : Val :=
  match v with
  | .fin _ m e => .fin false 1 (if m = 0 then -149 else max (-149) (e + blen m - 24))
  | v => v

/-- A free result `c` stands where it lies within `k` ulp, or within 2^`least`, of the exactly rounded result `r` (R182);
where it does not, `r` stands. -/
def boundedBy (r c : Word) (k : Nat) (least : Option Int) : Word :=
  let d := ((ofF32 c).add (ofF32 r).neg).abs
  let u := (ulpOf (ofF32 r)).mul (.fin false k 0)
  let near := !u.lt d || (match least with | some e => !(Val.fin false 1 e).lt d | none => false)
  if (ofF32 c).nonfinite ∨ (ofF32 r).nonfinite then r else if near then c else r

end Sys2Proof.Machine
end

