-- ==== Sys2Proof/Machine/VeMath.lean ====
section
/-! DEFINITION. The vector engine's arithmetic (05_vector_engine.md R179 to R190): the operations on FP32 lanes,
reductions in their fixed order, and the online softmax. -/

namespace Sys2Proof.Machine

/-- FP32 constants. -/
def f32one : Word := 0x3F800000
def f32half : Word := 0x3F000000
def f32inf : Word := 0x7F800000
def f32ninf : Word := 0xFF800000
def f32nzero : Word := 0x80000000

/-- Order with −0 below +0, for values that are not NaN (R181). -/
def ltZero (a b : Word) : Bool :=
  (ofF32 a).lt (ofF32 b) || (a == f32nzero && b == 0)

/-- MIN and MAX (R181). -/
def f32min (a b : Word) : Word :=
  if ofF32 a = .nan ∨ ofF32 b = .nan then nan32 else if ltZero b a then b else a
def f32max (a b : Word) : Word :=
  if ofF32 a = .nan ∨ ofF32 b = .nan then nan32 else if ltZero a b then b else a

/-- The value of a comparison condition (R179, R180). -/
def f32cmp (cond : Nat) (a b : Word) : Bool :=
  let x := ofF32 a
  let y := ofF32 b
  if x = .nan ∨ y = .nan then cond == 1
  else
    let lt := x.lt y
    let gt := y.lt x
    let eq := !lt && !gt
    match cond with
    | 0 => eq
    | 1 => !eq
    | 2 => lt
    | 3 => lt || eq
    | 4 => gt
    | _ => gt || eq

/-- The whole number a finite value equals, if it does. -/
def wholeOf : Val → Option Int
  | .fin n m e =>
    let z (k : Nat) : Int := if n then -(k : Int) else k
    if 0 ≤ e then some (z (m * 2 ^ e.toNat))
    else if m % 2 ^ (-e).toNat = 0 then some (z (m / 2 ^ (-e).toNat)) else none
  | _ => none

/-- EXP2: special values of R183, exact powers of two for whole inputs, else a free value within 1 ulp (R182). -/
def f32exp2 (w : Word) : Word :=
  match ofF32 w with
  | .nan => nan32
  | .inf n => if n then 0 else f32inf
  | .fin n m e =>
    let v := Val.fin n m e
    if (Val.fin false 128 0).lt v then f32inf
    else if v.lt (.fin true 150 0) then 0
    else
      let free := boundedBy (exactExp2 n m e) (Config.exp2 w) 1 none
      match wholeOf v with
      | some z => if -149 ≤ z then toF32 (.fin false 1 z) else free
      | none => free

/-- LOG2: R183, else a free value within 1 ulp or 2^−25 (R182). -/
def f32log2 (w : Word) : Word :=
  match ofF32 w with
  | .nan => nan32
  | .inf n => if n then nan32 else f32inf
  | .fin n m e =>
    if m = 0 then f32ninf else if n then nan32 else boundedBy (exactLog2 m e) (Config.log2 w) 1 (some (-25))

/-- RCP: R183, else a free value within 1 ulp (R182). RCP(1) is 1: a stream's only position comes back from the online softmax
unchanged (R258). -/
def f32rcp (w : Word) : Word :=
  match ofF32 w with
  | .nan => nan32
  | .inf n => if n then f32nzero else 0
  | .fin n m e =>
    if m = 0 then (if n then f32ninf else f32inf)
    else if w = f32one then f32one
    else boundedBy (exactRcp n m e) (Config.rcp w) 1 none

/-- RSQRT: R183, else a free value within 1 ulp (R182). -/
def f32rsqrt (w : Word) : Word :=
  match ofF32 w with
  | .nan => nan32
  | .inf n => if n then nan32 else 0
  | .fin n m e =>
    if m = 0 then (if n then f32ninf else f32inf)
    else if n then nan32
    else boundedBy (exactRsqrt m e) (Config.rsqrt w) 1 none

/-- SIGMOID: R183, else a free value within 2 ulp or 2^−26 (R182). -/
def f32sigmoid (w : Word) : Word :=
  match ofF32 w with
  | .nan => nan32
  | .inf n => if n then 0 else f32one
  | .fin n m e => if m = 0 then f32half else boundedBy (exactSigmoid n m e) (Config.sigmoid w) 2 (some (-26))

/-- TANH: R183, else a free value within 2 ulp or 2^−26 (R182). -/
def f32tanh (w : Word) : Word :=
  match ofF32 w with
  | .nan => nan32
  | .inf n => if n then 0xBF800000 else f32one
  | .fin n m e => if m = 0 then w else boundedBy (exactTanh n m e) (Config.tanh w) 2 (some (-26))

/-- GELU: R183, else a free value within 4 ulp or 2^−24 of x × Φ(x) (R182). -/
def f32gelu (w : Word) : Word :=
  match ofF32 w with
  | .nan => nan32
  | .inf n => if n then f32nzero else f32inf
  | .fin n m e => if m = 0 then w else boundedBy (exactGelu n m e) (Config.gelu w) 4 (some (-24))

/-- ABS. -/
def f32abs (w : Word) : Word := toF32 (ofF32 w).abs

/-- One level of the pairwise tree: lane 2i with lane 2i + 1; a masked lane contributes nothing (R175, R184). -/
def pairLevel (op : Word → Word → Word) : List (Option Word) → List (Option Word)
  | a :: b :: t =>
    (match a, b with
     | some x, some y => some (op x y)
     | some x, none => some x
     | none, y => y) :: pairLevel op t
  | l => l

/-- Eight levels reduce the 256 lanes of a beat. -/
def beatReduce (op : Word → Word → Word) (lanes : List (Option Word)) : Option Word :=
  ((List.range 8).foldl (fun l _ => pairLevel op l) lanes).headD none

/-- Cut a row into beats of 256 lanes (R174); `fuel` bounds the number of beats. -/
def beatsOf : Nat → List (Option Word) → List (List (Option Word))
  | 0, _ => []
  | k + 1, l => if l.isEmpty then [] else l.take 256 :: beatsOf k (l.drop 256)

/-- A row's reduction: each beat in the tree, then the beats in order (R184). -/
def rowReduce (op : Word → Word → Word) (lanes : List (Option Word)) : Option Word :=
  (beatsOf (lanes.length / 256 + 1) lanes).foldl (fun acc b =>
    match acc, beatReduce op b with
    | some x, some y => some (op x y)
    | none, y => y
    | x, none => x) none

/-- RSUM and RMAX of a full row. -/
def rowSum (xs : List Word) : Word := (rowReduce f32add (xs.map some)).getD 0
def rowMax (xs : List Word) : Word := (rowReduce f32max (xs.map some)).getD f32ninf

/-- The finite lanes of a row, others masked (R196). -/
def finiteLanes (xs : List Word) : List (Option Word) :=
  xs.map (fun w => if (ofF32 w).nonfinite then none else some w)

/-- OSM STEP on one row (R188): outputs, m, l, c. -/
def osmStep (m l : Word) (xs : List Word) : List Word × Word × Word × Word :=
  if xs.any (fun x => x == f32inf || ofF32 x = .nan) then
    let mn := f32max m (rowMax xs)
    (xs.map (fun _ => nan32), mn, nan32, if f32cmp 0 m mn then f32one else f32exp2 (f32add m (f32neg mn)))
  else
    let mn := f32max m (rowMax xs)
    if mn = f32ninf then (xs.map (fun _ => 0), mn, l, f32one)
    else
      let ps := xs.map (fun x => f32exp2 (f32add x (f32neg mn)))
      let c := if f32cmp 0 m mn then f32one else if m = f32ninf then 0 else f32exp2 (f32add m (f32neg mn))
      (ps, mn, f32fma l c (rowSum ps), c)

/-- OSM FINISH on one row (R189): outputs, and whether the row is empty. -/
def osmFinish (l : Word) (xs : List Word) : List Word × Bool :=
  if (ofF32 l).isZero then (xs.map (fun _ => 0), true)
  else (xs.map (fun x => f32mul x (f32rcp l)), false)

end Sys2Proof.Machine
end

