-- ==== Sys2Proof/Machine/VeOps.lean ====
section
/-! DEFINITION. The vector engine's commands on one core (05_vector_engine.md R169 to R209, 04_number_formats.md
R142 to R154). -/

namespace Sys2Proof.Machine

/-! ## Flight-table entries -/

/-- A stage of a flight (table "Flight-table entry"). -/
structure Stage where
  op : Nat
  mod : Nat
  yk : Nat
  yi : Nat
  zk : Nat
  zi : Nat
  dt : Nat
  dr : Nat
  yr : Nat
  zr : Nat
  deriving DecidableEq, Repr, Inhabited

/-- Stage `s` of an entry's 32 words. -/
def stageAt (fw : List Word) (s : Nat) : Stage :=
  let a := dw fw (2 * s)
  let b := dw fw (2 * s + 1)
  { op := bits a 26 6, mod := bits a 21 5, yk := bits a 13 3, yi := bits a 8 5, zk := bits a 5 3, zi := bits a 0 5,
    dt := bits b 28 4, dr := bits b 25 3, yr := bits b 22 3, zr := bits b 19 3 }

/-- NSTAGES and the stages of an entry. -/
def nStages (fw : List Word) : Nat := bits (dw fw 16) 0 4
def stagesOf (fw : List Word) : List Stage := (List.range (min (nStages fw) 8)).map (stageAt fw)

/-- Operations with one operand Y, unary operations, and reductions. -/
def opBinary (o : Nat) : Bool := o == 1 || o == 2 || o == 3 || o == 4 || o == 5 || o == 6 || o == 0x10 || o == 0x11 || o == 0x18
def opReduce (o : Nat) : Bool := o == 0x14 || o == 0x15 || o == 0x16 || o == 0x17
def opListed (o : Nat) : Bool :=
  (1 ≤ o && o ≤ 0x0E) || o == 0x10 || o == 0x11 || o == 0x12 || opReduce o || o == 0x18 || o == 0x19

/-- Formats a CVT may name (R191). -/
def cvtListed (m : Nat) : Bool := (1 ≤ m && m ≤ 8) || m == 0x10 || m == 0x11

/-- MOD is defined for the operation (R204). -/
def modOk (s : Stage) : Bool :=
  if s.op = 0x10 then decide (s.mod ≤ 5) else if s.op = 0x12 then cvtListed s.mod
  else if s.op = 0x19 then decide (s.mod ≤ 1) else s.mod == 0

/-- Stage latency L (R179). -/
def stageLatency (o : Nat) : Nat :=
  if o ≤ 7 then 3 else if o ≤ 0x0E then 7 else if o = 0x10 ∨ o = 0x11 then 2 else if o = 0x12 then 5
  else if opReduce o then 9 else if o = 0x18 then 4 else 12

/-- An operand's index is legal for its kind (R176). -/
def operandOk (k i : Nat) : Bool :=
  match k with
  | 1 => decide (i ≤ 15)
  | 2 => decide (i ≤ 15)
  | 3 => decide (i ≤ 3)
  | 4 => decide (i ≤ 7)
  | 5 => decide (i ≤ 3)
  | _ => i == 0

/-- One stage of an entry is valid (R204). -/
def stageOk (fw : List Word) (s : Nat) : Bool :=
  let st := stageAt fw s
  opListed st.op && modOk st && bits (dw fw (2 * s)) 16 5 == 0 && bits (dw fw (2 * s + 1)) 0 19 == 0 &&
  (opBinary st.op || (st.yk == 0 && st.yi == 0)) && (st.op == 4 || (st.zk == 0 && st.zi == 0)) &&
  operandOk st.yk st.yi && operandOk st.zk st.zi && (s == 0 || (st.yk != 5 && st.zk != 5)) &&
  (st.op != 0x11 || (List.range s).any (fun t => (stageAt fw t).op == 0x10)) &&
  (st.op != 0x12 || !fmtNarrow st.mod || s + 1 == nStages fw) &&
  (st.op != 0x19 || decide (st.dr ≤ 5)) && (st.op != 0x18 || st.yk == 1 || st.yk == 2)

/-- A flight-table entry is valid (R204). -/
def flightValid (fw : List Word) : Bool :=
  let n := nStages fw
  decide (n ≤ 8) && (List.range n).all (stageOk fw) && zeroWords fw (2 * n) (16 - 2 * n) &&
  decide (((List.range n).countP (fun s => (stageAt fw s).op == 0x19)) ≤ 1) &&
  bits (dw fw 16) 4 28 == 0 && bits (dw fw 17) 24 4 == 0 && bits (dw fw 17) 0 6 == 0 &&
  bits (dw fw 18) 24 8 == 0 && bits (dw fw 18) 0 6 == 0 && bits (dw fw 19) 31 1 == 0 && bits (dw fw 19) 24 4 == 0 &&
  bits (dw fw 19) 0 12 == 0 && bits (dw fw 20) 31 1 == 0 && bits (dw fw 20) 24 4 == 0 && bits (dw fw 20) 0 5 == 0 &&
  zeroWords fw 21 3

/-! ## The descriptor -/

def vSrcKind (ws : List Word) : Nat := bits (dw ws 1) 30 2
def vDstKind (ws : List Word) : Nat := bits (dw ws 1) 28 2
def vRescale (ws : List Word) : Bool := bitAt (dw ws 1) 27
def vBank (ws : List Word) : Nat := bits (dw ws 1) 25 2
def vRow0 (ws : List Word) : Nat := bits (dw ws 1) 17 8
def vSumTile (ws : List Word) : Nat := bits (dw ws 1) 13 4
def vSumRows (ws : List Word) : Bool := bitAt (dw ws 1) 12
def vSumStage (ws : List Word) : Nat := bits (dw ws 1) 9 3
def vRowBase (ws : List Word) : Nat := bits (dw ws 15) 16 10
def vSumTag (ws : List Word) : Nat := bits (dw ws 15) 0 16

/-- Flight range and cache window of a job on a core (R170): first entry, entries, window base, window bytes. -/
def veRange (c : CoreSt) (job : Nat) : Nat × Nat × Nat × Nat := Table.look (0, 0, 0, 0) c.ve.ranges job

/-- Key of tile element (tile, row, column), and the tile of a tile plane (R203). -/
def tileKey (t r j : Nat) : Nat := (t * 8 + r) * 256 + j
def planeTile (p : Plane) : Nat := bits p.offset 0 7 / 8
def planeTileRow (p : Plane) : Nat := bits p.offset 0 7 % 8

/-- Elements per row, N (05 "Tensors, beats and edge masks"). -/
def vN (kind : Nat) (p : Plane) : Nat := if kind = 2 then 256 else (p.widthM1 + 1) * 256 / fmtBits p.fmt

/-- The plane words of one side are legal for its kind (R53, R203). -/
def vePlaneOk (ws : List Word) (i kind : Nat) (write : Bool) : Bool :=
  let p := planeAt ws i
  let base := planeReservedOk ws i && p.legal write
  match kind with
  | 0 => base
  | 1 => base && p.pound == 0 && p.skew == 0 && p.tagmode == 0
  | _ => bits (dw ws i) 7 17 == 0 && bits (dw ws i) 30 2 == 0 && p.tagmode != 3 && (ws.getD (i + 5) 0) == 0 && p.fmt == 0x10 &&
         p.widthM1 == 31 && p.pitch == 32 && p.skew == 0 && decide (planeTileRow p + p.rowsM1 ≤ 7)

/-- Physical addresses that a scratchpad plane covers; none for other kinds. -/
def vAddrs (c : CoreSt) (kind : Nat) (p : Plane) : List Nat :=
  if kind = 0 then planeAddrs (c.spad.pound p.pound) p else []

/-- Source and destination overlap (R205, R207). -/
def vOverlap (ws : List Word) : Bool :=
  let s := planeAt ws 2
  let d := planeAt ws 8
  let k := vSrcKind ws
  if k ≠ (match vDstKind ws with | 0 => 0 | 1 => 1 | 2 => 3 | _ => 4) then false
  else if k = 3 then planeTile s == planeTile d &&
    decide (planeTileRow s ≤ planeTileRow d + d.rowsM1) && decide (planeTileRow d ≤ planeTileRow s + s.rowsM1)
  else (k == 1 || s.pound == d.pound) && decide (s.offset < d.endb) && decide (d.offset < s.endb)

/-- First byte of the scale plane that follows a narrow plane (R193). -/
def scalePlaneAt (p : Plane) : Nat := (p.endb + 4095) / 4096 * 4096
/-- Its bytes (R140). -/
def scalePlaneLen (n rows : Nat) : Nat := (n + 255) / 256 * rows * 8
/-- Offset in it of the scale of row r and group g (R140). -/
def scaleAt (rows r g : Nat) : Nat := (g / 8 * rows + r) * 8 + g % 8

/-! ## Reading the source -/

/-- Byte `o` of a scratchpad pound or of the job's cache window. -/
def vByte (c : CoreSt) (job kind pound o : Nat) : Byte :=
  if kind = 0 then c.spad.bytes.read (physByte (c.spad.pound pound) o)
  else c.ve.cache.read ((veRange c job).2.2.1 + o)

/-- The FP32 lanes of source row `r` (R142, R177; the block scales of a narrow source lie where R193 puts those of a
destination, DEDUCED). -/
def sourceRow (c : CoreSt) (ws : List Word) (r : Nat) : List Word :=
  let p := planeAt ws 2
  let kind := vSrcKind ws
  let job := dJob ws
  if kind = 2 then
    let row := vRow0 ws + r
    (c.me.readRow (vBank ws) row (vRescale ws)).map (fun w =>
      if c.me.int32 (vBank ws) row ∧ !vRescale ws then toF32 (Val.ofInt (signed 32 w.toNat)) else w)
  else if kind = 3 then c.ve.tiles.readN (tileKey (planeTile p) (planeTileRow p + r) 0) 256
  else
    let bs := if kind = 0 then readRow c.spad p r
      else (List.range p.rowBytes).map (fun x => vByte c job 1 0 (p.byteAt r x))
    let codes := unpack p.fmt bs
    (List.range codes.length).zip codes |>.map (fun e =>
      widen p.fmt e.2 (if fmtNarrow p.fmt then
        (vByte c job kind p.pound (scalePlaneAt p + scaleAt p.rows r (e.1 / 32))).toNat else 127))

/-! ## Running the stages -/

/-- What one row of a flight carries from stage to stage. -/
structure RowRun where
  xs : List Word
  pred : List Bool
  tiles : List (Nat × Nat × Word) := []
  oor : Nat := 0
  empty : Bool := false
  outs : List (List Word) := []
  deriving DecidableEq, Repr, Inhabited

/-- The operand of a stage for lane j of row r (R173, R176). -/
def operand (c : CoreSt) (ws fw : List Word) (caps : List Word) (src : List Word) (k i b r j : Nat) : Word :=
  match k with
  | 0 => src.getD j 0
  | 1 => c.ve.tiles.read (tileKey i (b + r / 256) (r % 256))
  | 2 => c.ve.tiles.read (tileKey i (b + j / 256) (j % 256))
  | 3 => caps.getD i 0
  | 4 => fw.getD (24 + i) 0
  | 5 => (c.me.readRow i (vRow0 ws + r) (vRescale ws)).getD j 0 |> fun w =>
      if c.me.int32 i (vRow0 ws + r) ∧ !vRescale ws then toF32 (Val.ofInt (signed 32 w.toNat)) else w
  | 6 => toF32 (.fin false j 0)
  | _ => toF32 (.fin false r 0)

/-- The value with which a flight goes on after a CVT that writes no codes (R191): rounded to the format's grid, without block
scale. A value beyond the format's range saturates (R143 step 5), an infinity in FP32 too. -/
def cvtValue (fmt : Nat) (x : Word) : Word :=
  match ofF32 x with
  | .nan => if fmt ≤ 4 ∨ fmt = 0x10 then nan32 else Config.cvtNan fmt
  | v => toF32 (decode fmt (encodeSat fmt v).1)

/-- GATHER in one lane (R186): the value and whether the index is out of range. -/
def gatherLane (c : CoreSt) (tile b : Nat) (x : Word) : Word × Bool :=
  match ofF32 x with
  | .fin n m e =>
    let z := (Val.fin n m e).round
    if 0 ≤ z ∧ z < 256 * (8 - (b : Int)) then
      (c.ve.tiles.read (tileKey tile (b + z.toNat / 256) (z.toNat % 256)), false)
    else (0, true)
  | _ => (0, true)

/-- The lane operations of R179 that take X, Y and Z. -/
def laneOp (op : Nat) (x y z : Word) : Word :=
  match op with
  | 0x01 => f32add x y
  | 0x02 => f32add x (f32neg y)
  | 0x03 => f32mul x y
  | 0x04 => f32fma x y z
  | 0x05 => f32min x y
  | 0x06 => f32max x y
  | 0x07 => f32abs x
  | 0x08 => f32exp2 x
  | 0x09 => f32log2 x
  | 0x0A => f32rcp x
  | 0x0B => f32rsqrt x
  | 0x0C => f32sigmoid x
  | 0x0D => f32tanh x
  | 0x0E => f32gelu x
  | _ => x

/-- One stage on one row (R179 to R190). CSUM and CMAX pass X on; their sums are formed over the rows. `final` says that the flight's
last stage is a CVT, whose input stays X here: its codes are formed when the rows are converted. -/
def runStage (c : CoreSt) (ws fw caps src : List Word) (r : Nat) (final : Bool) (i : Nat) (s : Stage)
    (rr : RowRun) : RowRun :=
  let n := rr.xs.length
  let lanes := (List.range n).zip rr.xs
  let y (j : Nat) : Word := operand c ws fw caps src s.yk s.yi s.yr r j
  let z (j : Nat) : Word := operand c ws fw caps src s.zk s.zi s.zr r j
  let rowTile (b : Nat) (v : Word) : Nat × Nat × Word := (i, tileKey s.dt (b + r / 256) (r % 256), v)
  let out : RowRun :=
    if s.op = 0x10 then { rr with pred := lanes.map (fun e => f32cmp s.mod e.2 (y e.1)) }
    else if s.op = 0x11 then
      { rr with xs := lanes.map (fun e => if rr.pred.getD e.1 false then y e.1 else e.2) }
    else if s.op = 0x12 then (if final then rr else { rr with xs := rr.xs.map (cvtValue s.mod) })
    else if s.op = 0x14 then { rr with tiles := rr.tiles ++ [rowTile s.dr (rowSum rr.xs)] }
    else if s.op = 0x15 then { rr with tiles := rr.tiles ++ [rowTile s.dr (rowMax rr.xs)] }
    else if s.op = 0x16 ∨ s.op = 0x17 then rr
    else if s.op = 0x18 then
      let gs := rr.xs.map (gatherLane c s.yi s.yr)
      { rr with xs := gs.map (·.1), oor := rr.oor + countTrue (gs.map (·.2)) }
    else if s.op = 0x19 then
      let m := c.ve.tiles.read (tileKey s.dt s.dr (r % 256))
      let l := c.ve.tiles.read (tileKey s.dt (s.dr + 1) (r % 256))
      if s.mod = 0 then
        let o := osmStep m l rr.xs
        { rr with xs := o.1, tiles := rr.tiles ++ [rowTile s.dr o.2.1, rowTile (s.dr + 1) o.2.2.1, rowTile (s.dr + 2) o.2.2.2] }
      else
        let o := osmFinish l rr.xs
        { rr with xs := o.1, empty := rr.empty || o.2 }
    else { rr with xs := lanes.map (fun e => laneOp s.op e.2 (y e.1) (z e.1)) }
  { out with outs := out.outs ++ [out.xs] }

/-- All stages on one row. -/
def runRow (c : CoreSt) (ws fw caps : List Word) (finalCvt : Bool) (r : Nat) : RowRun :=
  let src := sourceRow c ws r
  let n := nStages fw
  (List.range n).foldl (fun rr s =>
    runStage c ws fw caps src r (finalCvt && s + 1 == n) s (stageAt fw s) rr) { xs := src, pred := src.map (fun _ => false) }

/-- The tile writes of a column reduction over all rows, in row order (R184). -/
def columnTiles (s : Stage) (outs : List (List Word)) : List (Nat × Word) :=
  let op := if s.op = 0x16 then f32add else f32max
  match outs with
  | [] => []
  | o :: os =>
    let col := os.foldl (fun acc row => (acc.zip row).map (fun e => op e.1 e.2)) o
    (List.range col.length).zip col |>.map (fun e => (tileKey s.dt (s.dr + e.1 / 256) (e.1 % 256), e.2))

/-! ## The final convert stage -/

/-- A scale record's fields (R152). -/
structure ScaleRec where
  fmt : Nat
  bashaba : Bool
  channels : Nat
  sigma : List Word
  scales : List Nat
  deriving DecidableEq, Repr

/-- Read a scale record for `n` channels. -/
def readScaleRec (sp : Spad) (pound off n : Nat) : ScaleRec :=
  let w0 := (poundWord sp pound off).toNat
  let c := bits w0 0 12 + 1
  { fmt := bits w0 24 4, bashaba := bitAt w0 28, channels := c,
    sigma := bytesToWords (readPound sp pound (off + 0x40) (4 * n)),
    scales := (readPound sp pound (off + 0x40 + 4 * c) ((n + 31) / 32)).map (·.toNat) }

/-- A converted row: codes, scale bytes by group, clips by channel, non-finite inputs. -/
structure CvtRow where
  codes : List Nat
  scales : List Nat
  clips : List Bool
  bad : Nat
  deriving DecidableEq, Repr

/-- The Bashaba quantiser on one element (R151): round(clamp(x, ±127σ) / σ). -/
def bashabaQuant (sigma x : Word) : Nat × Bool × Bool :=
  match ofF32 x, ofF32 sigma with
  | .nan, _ => (0, false, true)
  | v, .fin _ ms es =>
    let lim := (Val.fin false ms es).mul (.fin false 127 0)
    let above := lim.lt v.abs
    let q := if above then 127
      else match v with
        | .fin _ m e =>
          let lo := min e es
          rneDiv (m * 2 ^ (e - lo).toNat) (ms * 2 ^ (es - lo).toNat)
        | _ => 127
    (if v.isNeg then (256 - q) % 256 else q, above, v.nonfinite)
  | _, _ => (0, false, true)

/-- Converting one row with a final CVT (R143 to R147, R150, R151). -/
def cvtRow (fmt : Nat) (rec : Option ScaleRec) (xs : List Word) : CvtRow :=
  let idx := (List.range xs.length).zip xs
  match rec with
  | none =>
    let rs := xs.map (fun x =>
      let r := narrow fmt none (ofF32 x)
      if fmt = 0x11 ∧ ofF32 x = .nan then ((Config.cvtNan fmt).toNat, r.2) else r)
    { codes := rs.map (·.1), scales := [], clips := rs.map (·.2.1), bad := countTrue (rs.map (·.2.2)) }
  | some sr =>
    if sr.bashaba then
      let rs := idx.map (fun e => bashabaQuant (sr.sigma.getD e.1 0) e.2)
      { codes := rs.map (·.1), scales := [], clips := rs.map (·.2.1), bad := countTrue (rs.map (·.2.2)) }
    else
      let rs := idx.map (fun e =>
        narrow fmt (some ((ofF32 (sr.sigma.getD e.1 0)).mul (fmtMax fmt), sr.scales.getD (e.1 / 32) 0)) (ofF32 e.2))
      let noCode := fmt = 5 ∨ fmt = 6 ∨ fmt = 7 ∨ fmt = 8
      let poisoned (g : Nat) : Bool :=
        decide noCode && idx.any (fun e => e.1 / 32 == g && ofF32 e.2 = .nan)
      { codes := (List.range rs.length).zip rs |>.map (fun e => if poisoned (e.1 / 32) then 0 else e.2.1),
        scales := (List.range ((xs.length + 31) / 32)).map (fun g => if poisoned g then 0xFF else sr.scales.getD g 0),
        clips := rs.map (·.2.1), bad := countTrue (rs.map (·.2.2)) }

/-! ## The commands -/

/-- The format of a CVT in the last stage of an entry. -/
def lastCvt (fw : List Word) : Option Nat :=
  if nStages fw = 0 then none
  else
    let s := stageAt fw (nStages fw - 1)
    if s.op = 0x12 then some s.mod else none

/-- The final CVT of an entry that writes the destination's codes (R191): a flight without a destination writes none. -/
def finalCvt (ws fw : List Word) : Option Nat := if vDstKind ws = 3 then none else lastCvt fw

/-- What the last CVT of a flight puts out (R179, R196): the values that its codes stand for, or with no destination the values
on the format's grid. -/
def cvtOut (dst : Bool) (fmt : Nat) (rec : Option ScaleRec) (v : CvtRow) (xs : List Word) : List Word :=
  if !dst then xs.map (cvtValue fmt)
  else
    let blocks := match rec with | some r => !r.bashaba | none => false
    (List.range v.codes.length).zip v.codes |>.map (fun e =>
      if fmt = 0x10 then BitVec.ofNat 32 e.2 else widen fmt e.2 (if blocks then v.scales.getD (e.1 / 32) 127 else 127))

/-- A row whose last stage, a CVT, has put out `ys`. -/
def RowRun.put (r : RowRun) (ys : List Word) : RowRun := { r with xs := ys, outs := r.outs.dropLast ++ [ys] }

/-- Tiles that a flight reads (R208). -/
def tilesRead (ws fw : List Word) : List Nat :=
  (if vSrcKind ws = 3 then [planeTile (planeAt ws 2)] else []) ++
  (stagesOf fw).flatMap (fun s =>
    (if s.yk = 1 ∨ s.yk = 2 then [s.yi] else []) ++ (if s.zk = 1 ∨ s.zk = 2 then [s.zi] else []) ++
    (if s.op = 0x19 then [s.dt] else []))

/-- Banks that a flight reads: its source's and those of kind 5 operands. -/
def banksRead (ws fw : List Word) : Nat :=
  (if vSrcKind ws = 2 then readClaim (vBank ws) else 0) |||
  (stagesOf fw).foldl (fun a s => a ||| (if s.yk = 5 then readClaim s.yi else 0) ||| (if s.zk = 5 then readClaim s.zi else 0)) 0

/-- The words of the flight-table entry that a VE_FLIGHT names; none of an invalid one. -/
def CoreSt.flightWords (c : CoreSt) (ws : List Word) : List Word :=
  match OTable.at? c.ve.flights ((veRange c (dJob ws)).1 + bits (dw ws 14) 20 6) with
  | some fb => bytesToWords fb
  | none => []

/-- LOADFT's plane, or a flight's source, waits for the earlier commands that write bytes of its extent (R208). A skewed plane has
words outside the extent's own addresses (R54), which count too. -/
def veReadBlocked (c : CoreSt) (p : Plane) : Bool :=
  let pd := c.spad.pound p.pound
  let own := if p.skew = 0 then [] else planeAddrs pd p
  c.running.any (fun r => r.queue == 2 && r.dest.any (fun a => decide (a < cacheDest 0) && (p.inExtent pd a || own.contains a)))

/-- An earlier started command stands in the way (R208): it writes a tile, or bytes of the source's extent, that this one reads, or
the cache while this one reads the cache. -/
def veBlocked (c : CoreSt) (ws fw : List Word) : Bool :=
  let tiles := tilesRead ws fw
  c.running.any (fun r => r.queue == 2 &&
    (r.effects.any (fun e => match e with | .tiles l => l.any (fun k => tiles.contains (k.1 / 2048)) | _ => false) ||
     (vSrcKind ws == 1 && vDstKind r.entry.words == 1 && dOp r.entry.words == 1))) ||
  (vSrcKind ws == 0 && veReadBlocked c (planeAt ws 2))

/-- The words of one port access from word `l` on that meet in one bank (R47, R54): k of that access. -/
def sliceK (hash l n : Nat) : Nat :=
  let banks := (List.range n).map (fun i => ((l + i) % 64) ^^^ hashOf hash ((l + i) / 64))
  (banks.map (fun b => banks.countP (· == b))).foldl max 1

/-- k of a plane read or written row by row (R57): without a hash, and with a skew, whose rows start on bank rows, it is 1. -/
def planeK (pd : Pound) (p : Plane) : Nat :=
  if pd.hash = 0 ∨ p.skew ≠ 0 then 1
  else
    let slices (l n : Nat) : Nat :=
      ((List.range (ceilDiv n 64)).map (fun i => sliceK pd.hash (l + 64 * i) (min 64 (n - 64 * i)))).foldl max 1
    if p.rowsM1 = 0 ∨ p.pitch = p.widthM1 + 1 then slices (p.offset / 32) (p.rows * (p.widthM1 + 1))
    else ((List.range p.rows).map (fun r => slices (p.offset / 32 + r * p.pitch) (p.widthM1 + 1))).foldl max 1

/-- Port grants of a side (05 "Ordering and timing"). -/
def veGrants (c : CoreSt) (kind : Nat) (p : Plane) : Nat :=
  if kind ≠ 0 then 0
  else (if p.rowsM1 = 0 ∨ p.pitch = p.widthM1 + 1 then ceilDiv (p.rows * (p.widthM1 + 1)) 64
    else p.rows * ceilDiv (p.widthM1 + 1) 64) * planeK (c.spad.pound p.pound) p

/-- Where the scale record lies that the EPOCH bit names (R192). -/
def recAt (ws fw : List Word) : Nat := if bitAt (dw ws 14) 26 then bits (dw fw 18) 0 24 else bits (dw fw 17) 0 24

/-- U of a flight (R209). -/
def veCycles (c : CoreSt) (ws fw : List Word) : Nat :=
  let p := planeAt ws 2
  let n := vN (vSrcKind ws) p
  let g := veGrants c (vSrcKind ws) p + (if vDstKind ws = 0 then veGrants c 0 (planeAt ws 8) else 0)
  let narrowDst : Bool := match finalCvt ws fw with | some f => fmtNarrow f | none => false
  let bashaba := bitAt (poundWord c.spad (bits (dw fw 17) 28 3) (recAt ws fw)).toNat 28
  let cv := if narrowDst then ceilDiv (64 + 4 * n + ceilDiv n 32) 2048 +
      (if bashaba then 0 else ceilDiv (8 * p.rows * ceilDiv n 256) 2048) +
      (if bitAt (dw fw 17) 31 then 1 + 2 * ceilDiv (256 + 4 * n) 2048 else 0) else 0
  max (p.rows * ceilDiv n 256) (portCycles (wheelSlots c.spad.wheelLo c.spad.wheelHi 2) (g + cv))

/-- The words of a VE descriptor common to its opcodes are legal. -/
def veWordsOk (ws : List Word) : Bool :=
  word0Ok ws && bits (dw ws 1) 5 4 == 0 && bits (dw ws 15) 26 6 == 0

/-- An entry that uses kind 5 or OSM obeys R176 and R187, read against the descriptor (R205). -/
def flightFits (ws fw : List Word) : Bool :=
  let p := planeAt ws 2
  let n := vN (vSrcKind ws) p
  (stagesOf fw).all (fun s =>
    (s.op != 0x19 || (decide (n ≤ 256) && decide (p.rows ≤ 256))) && ((s.yk != 5 && s.zk != 5) || n == 256))

/-- No tile base row plus the rows that its operand or write spans, at the descriptor's rows and columns, is greater than 7 (R204). A
GATHER indexes its table by X and spans no rows (R186). -/
def flightSpans (ws fw : List Word) : Bool :=
  let p := planeAt ws 2
  let n := vN (vSrcKind ws) p
  let fits (k b : Nat) : Bool :=
    if k = 1 then decide (b + p.rowsM1 / 256 ≤ 7) else if k = 2 then decide (b + (n - 1) / 256 ≤ 7) else true
  (stagesOf fw).all (fun s =>
    (!(s.op == 0x14 || s.op == 0x15) || fits 1 s.dr) && (!(s.op == 0x16 || s.op == 0x17) || fits 2 s.dr) &&
    (s.op == 0x18 || fits s.yk s.yr) && fits s.zk s.zr)

/-- The pound and window checks of a flight (R62, R171, R193). -/
def flightPounds (c : CoreSt) (ws : List Word) (fw : List Word) : Bool :=
  let job := dJob ws
  let s := planeAt ws 2
  let d := planeAt ws 8
  let n := vN (vSrcKind ws) s
  let win := (veRange c job).2.2.2
  let narrowDst : Bool := match finalCvt ws fw with | some f => fmtNarrow f | none => false
  let off := recAt ws fw
  let pdRec := c.spad.pound (bits (dw fw 17) 28 3)
  let bashaba := bitAt (poundWord c.spad (bits (dw fw 17) 28 3) off).toNat 28
  let extra := if narrowDst && !bashaba then scalePlaneLen n s.rows else 0
  let sx := if fmtNarrow s.fmt then scalePlaneAt s + scalePlaneLen n s.rows else s.endb
  let dx := if extra = 0 then d.endb else scalePlaneAt d + extra
  (match vSrcKind ws with
   | 0 => (c.spad.pound s.pound).allows job false sx
   | 1 => decide (sx ≤ win)
   | _ => true) &&
  (match vDstKind ws with
   | 0 => (c.spad.pound d.pound).allows job true dx
   | 1 => decide (dx ≤ win)
   | _ => true) &&
  (!narrowDst || pdRec.allows job false (off + 0x40 + 4 * n + (n + 31) / 32)) &&
  (!bitAt (dw fw 17) 31 || (lastCvt fw).isNone ||
    ((c.spad.pound (bits (dw fw 19) 28 3)).allows job true (bits (dw fw 19) 0 24 + 0x100 + 4 * n) &&
     (c.spad.pound (bits (dw fw 20) 28 3)).allows job false (bits (dw fw 20) 0 24 + 128)))

/-- The summary record of a flight (R196). -/
def summaryRec (ws : List Word) (rows : List RowRun) (nonfinite clips : Nat) : List Word :=
  let stage := vSumStage ws
  let outs := rows.map (fun r => r.outs.getD stage r.xs)
  let maxs := outs.map (fun o => (rowReduce f32max (finiteLanes o)).getD f32ninf)
  let sums := outs.map (fun o => (rowReduce f32add (finiteLanes o)).getD 0)
  let mx := maxs.foldl f32max f32ninf
  let sm := match sums with | [] => 0 | a :: t => t.foldl f32add a
  let em := rows.map (·.empty)
  [pack [(vSumTag ws, 16), (dJob ws, 8), (dOp ws, 0)], pack [((rows.length - 1) % 65536, 0)], mx, sm,
   BitVec.ofNat 32 (min nonfinite (2 ^ 32 - 1)), BitVec.ofNat 32 (min clips (2 ^ 32 - 1)),
   pack [(min (countTrue em) (2 ^ 17 - 1), 0)], 0] ++
  (List.range 8).map (fun i => pack ((List.range 32).map (fun b => (b2n (em.getD (32 * i + b) false), b))))

/-- The summary record of a VE_SETT or VE_LOADFT. -/
def plainRec (ws : List Word) (rowsM1 : Nat) : List Word :=
  [pack [(vSumTag ws, 16), (dJob ws, 8), (dOp ws, 0)], pack [(rowsM1, 0)], f32ninf] ++ List.replicate 13 0

/-- Tile writes of the summary rows (R197). -/
def summaryTiles (ws : List Word) (rows : List RowRun) : List (Nat × Word) :=
  if vSumRows ws then
    (List.range rows.length).zip rows |>.flatMap (fun e =>
      let o := e.2.outs.getD (vSumStage ws) e.2.xs
      [(tileKey (vSumTile ws) (e.1 / 256) (e.1 % 256), (rowReduce f32max (finiteLanes o)).getD f32ninf),
       (tileKey (vSumTile ws) (4 + e.1 / 256) (e.1 % 256), (rowReduce f32add (finiteLanes o)).getD 0)])
  else []

/-- A started VE_LOADFT of an entry has not committed: a flight of that entry waits for it (DEDUCED: R208 has a command wait for
what an earlier one writes). -/
def entryComing (c : CoreSt) (n : Nat) : Bool :=
  c.running.any (fun r => r.effects.any (fun e => match e with | .flight m _ => m == n | _ => false))

/-- VE_FLIGHT (R174 to R209). DESIGN CHOICE (log 141): a destination of other rows or another N than the source's takes the elements
that both have; its other elements stay. -/
def veFlight (c : CoreSt) (e : QEntry) : EngRes :=
  let ws := e.words
  let job := dJob ws
  let s := planeAt ws 2
  let d := planeAt ws 8
  let sk := vSrcKind ws
  let dk := vDstKind ws
  let rg := veRange c job
  let fl := bits (dw ws 14) 20 6
  let rows := s.rows
  let formOk := veWordsOk ws && bits (dw ws 14) 27 5 == 0 &&
    (sk == 2 || vePlaneOk ws 2 sk false) &&
    (if dk = 3 then planeReservedOk ws 8 && fmtListed d.fmt && d.tagmode != 3 else vePlaneOk ws 8 dk true) &&
    s.fmt != 0 && (sk != 2 || (decide (vRow0 ws + s.rowsM1 ≤ 255) && (s.fmt == 0x10 || s.fmt == 0x11))) &&
    (!vSumRows ws || decide (rows ≤ 1024))
  if !formOk then .fault c Cause.veIllegal
  else if rg.2.1 ≤ fl then .fault c Cause.veFlightBad
  else if entryComing c (rg.1 + fl) then .hold c
  else
    match OTable.at? c.ve.flights (rg.1 + fl) with
    | none => .fault c Cause.veFlightBad
    | some fb =>
      let fw := bytesToWords fb
      let n := vN sk s
      let dstFmtOk := dk == 3 || d.fmt == (lastCvt fw).getD 0x10
      let rowModes := sk != 2 || (List.range rows).all (fun r =>
        c.me.int32 (vBank ws) (vRow0 ws + r) == (s.fmt == 0x11))
      let destCells : List Nat := if dk = 1 then
          (List.range d.rows).flatMap (fun r => (List.range d.rowBytes).map (fun x => cacheDest (rg.2.2.1 + d.byteAt r x)))
        else vAddrs c dk d
      if !(flightValid fw && flightSpans ws fw) then .fault c Cause.veFlightBad
      else if !(dstFmtOk && flightFits ws fw && rowModes &&
          (!bitAt (dw fw 17) 31 || decide (vRowBase ws + s.rowsM1 ≤ 1023)) &&
          (!vOverlap ws || decide (veCycles c ws fw ≤ 60000))) then .fault c Cause.veIllegal
      else if !flightPounds c ws fw then .fault c Cause.poundFault
      else if claimConflict c.running (banksRead ws fw) ∨ veBlocked c ws fw then .hold c
      else
        let recNeeded : Bool := match finalCvt ws fw with | some f => fmtNarrow f | none => false
        let rec' := readScaleRec c.spad (bits (dw fw 17) 28 3) (recAt ws fw) n
        if recNeeded ∧ !(some rec'.fmt == finalCvt ws fw && rec'.channels == n && (!rec'.bashaba || rec'.fmt == 7)) then
          .fault c Cause.veScaleRec
        else
          match (if sk = 0 then tagCheck c.spad s else none) with
          | some f => .stopped c f destCells
          | none =>
            match (if dk = 0 then berthFull c.spad d else none) with
            | some f => .stopped c f destCells
            | none =>
              let rr0 := (List.range rows).map (runRow c ws fw e.caps (lastCvt fw).isSome)
              let record := if recNeeded then some rec' else none
              let cvts := match lastCvt fw with
                | some f => rr0.map (fun r => cvtRow f record r.xs)
                | none => []
              let rr := match lastCvt fw with
                | some f => (rr0.zip cvts).map (fun p => p.1.put (cvtOut (dk != 3) f record p.2 p.1.xs))
                | none => rr0
              let bad := match lastCvt fw with
                | some _ => (cvts.map (·.bad)).sum
                | none => (rr.map (fun r => r.xs.countP (fun x => (ofF32 x).nonfinite))).sum
              let clips := (cvts.map (fun v => countTrue v.clips)).sum
              let colOuts (i : Nat) : List (List Word) := rr.map (fun r => r.outs.getD i [])
              let stageTiles := (List.range (nStages fw)).flatMap (fun i =>
                let st := stageAt fw i
                rr.flatMap (fun r => (r.tiles.filter (fun t => t.1 == i)).map (·.2)) ++
                  (if st.op = 0x16 ∨ st.op = 0x17 then columnTiles st (colOuts i) else []))
              let dstTile := if dk = 2 then (List.range d.rows).zip rr |>.flatMap (fun p =>
                  (List.range 256).zip p.2.xs |>.map (fun q =>
                    (tileKey (planeTile d) (planeTileRow d + p.1) q.1, q.2))) else []
              let tiles := stageTiles ++ dstTile ++ summaryTiles ws rr
              let outRows := match finalCvt ws fw with
                | some f => cvts.map (fun v => packElems f v.codes)
                | none => rr.map (fun r => packElems 0x10 (r.xs.map (·.toNat)))
              let scaleBytes := (List.range rows).zip cvts |>.flatMap (fun p =>
                (List.range p.2.scales.length).zip p.2.scales |>.map (fun q =>
                  (scalePlaneAt d + scaleAt rows p.1 q.1, BitVec.ofNat 8 q.2)))
              let st := if dk = 0 then storeRows c.spad d outRows else (c.spad, [])
              let spad := if dk = 0 then { st.1 with bytes := st.1.bytes.writes (scaleBytes.map (fun (q : Nat × Byte) =>
                  (physByte (c.spad.pound d.pound) q.1, q.2))) } else st.1
              let scaleTags := if dk = 0 ∧ scaleBytes ≠ [] then
                  [Eff.untag (spanBarges (c.spad.pound d.pound) (scalePlaneAt d) (scalePlaneLen n rows))] else []
              let cache := if dk = 1 then
                  let at_ := ((List.range d.rows).zip outRows).flatMap (fun r =>
                    ((List.range d.rowBytes).map (fun x => rg.2.2.1 + d.byteAt r.1 x)).zip r.2)
                  (c.ve.cache.writes at_).writes (scaleBytes.map (fun q => (rg.2.2.1 + q.1, q.2)))
                else c.ve.cache
              let live (r : Nat) : Bool :=
                bitAt (c.spad.bytes.read (physByte (c.spad.pound (bits (dw fw 20) 28 3))
                  (bits (dw fw 20) 0 24 + (vRowBase ws + r) / 8))).toNat ((vRowBase ws + r) % 8)
              let lives := (List.range rows).filter live
              let tally := if bitAt (dw fw 17) 31 ∧ (lastCvt fw).isSome then
                  [Eff.tally (bits (dw fw 19) 28 3) (bits (dw fw 19) 0 24) (lives.map (vRowBase ws + ·))
                    ((lives.map (fun r => ((cvts.map (·.bad)).getD r 0))).sum)
                    ((List.range n).map (fun j => lives.countP (fun r => ((cvts.map (·.clips)).getD r []).getD j false)))]
                else []
              let u := veCycles c ws fw
              .run { c with spad := spad, ve := { c.ve with cache := cache } }
                (st.2 ++ scaleTags ++ [.busy 2 u, .occ (if sk = 0 then drained c.spad s else []), .tiles tiles] ++ tally ++
                  [.veCounts clips bad (rr.map (·.oor)).sum, .summary (summaryRec ws rr bad clips)])
                (destCells ++ (if dk = 0 then scaleBytes.map (fun q => physByte (c.spad.pound d.pound) q.1)
                  else scaleBytes.map (fun q => cacheDest (rg.2.2.1 + q.1))))
                (banksRead ws fw) (vOverlap ws)
                (withMaint (u + 10 + ((stagesOf fw).map (fun s => stageLatency s.op)).sum))

/-- VE_SETT (R190, R202): K0 into tile rows at the commit. -/
def veSett (c : CoreSt) (e : QEntry) : EngRes :=
  let ws := e.words
  let w := dw ws 14
  let tile := bits w 26 4
  let row0 := bits w 23 3
  let rowsM1 := bits w 20 3
  if !(veWordsOk ws && zeroWords ws 2 12 && bits w 30 2 == 0 && bits w 5 15 == 0 && decide (row0 + rowsM1 ≤ 7)) then .fault c Cause.veIllegal
  else
    let k := e.caps.getD 0 0
    let tiles := (List.range (rowsM1 + 1)).flatMap (fun r => (List.range 256).map (fun j => (tileKey tile (row0 + r) j, k)))
    let u := rowsM1 + 1
    .run c [.busy 2 u, .tiles tiles, .summary (plainRec ws rowsM1)] [] 0 false (withMaint (u + 4))

/-- VE_LOADFT (R202, R204): the entry is loaded at its commit (R324). -/
def veLoadft (c : CoreSt) (e : QEntry) : EngRes :=
  let ws := e.words
  let p := planeAt ws 2
  let job := dJob ws
  let rg := veRange c job
  let fl := bits (dw ws 14) 0 6
  if !(veWordsOk ws && planeOk ws 2 false && p.fmt == 0 && p.count == 128 && zeroWords ws 8 6 && bits (dw ws 14) 6 26 == 0) then .fault c Cause.veIllegal
  else if rg.2.1 ≤ fl then .fault c Cause.veFlightBad
  else if !planePound c.spad job p false then .fault c Cause.poundFault
  else if veReadBlocked c p then .hold c
  else
    match tagCheck c.spad p with
    | some f => .fault c f
    | none =>
      let bs := readPlane c.spad p
      if !flightValid (bytesToWords bs) then
        .fault { c with ve := { c.ve with flights := Table.put none c.ve.flights (rg.1 + fl) none } } Cause.veFlightBad
      else
        let u := portCycles (wheelSlots c.spad.wheelLo c.spad.wheelHi 2) 1
        .run c [.busy 2 u, .flight (rg.1 + fl) bs, .occ (drained c.spad p), .summary (plainRec ws 0)] [] 0 false (withMaint (u + 4))

end Sys2Proof.Machine
end

