-- ==== Sys2Proof/Machine/GpOps.lean ====
section
/-! DEFINITION. The gate pipeline's command on one core (06_recurrent_state.md R211 to R240). -/

namespace Sys2Proof.Machine

def gCell (ws : List Word) : Nat := bits (dw ws 1) 29 3
def gPeep (ws : List Word) : Bool := bitAt (dw ws 1) 28
def gPlane (ws : List Word) : Bool := bitAt (dw ws 1) 27
def gRescale (ws : List Word) : Bool := bitAt (dw ws 1) 26
def gInit (ws : List Word) : Bool := bitAt (dw ws 1) 25
def gBf16 (ws : List Word) : Bool := bitAt (dw ws 1) 24
def gRow0 (ws : List Word) : Nat := bits (dw ws 1) 16 8
def gSlotBank (ws : List Word) (q : Nat) : Nat := bits (dw ws 1) (8 + 2 * q) 2
def gHout (ws : List Word) : Bool := bitAt (dw ws 1) 7
def gRowBase (ws : List Word) : Nat := bits (dw ws 14) 16 10

/-- Slots of a cell (R213). -/
def cellSlots : Nat → Nat
  | 0 => 4 | 1 => 4 | 2 => 3 | _ => 1

/-- Bytes of a state element, and the bank words of a state row (R219). -/
def stateElem (ws : List Word) : Nat := if gBf16 ws then 2 else 4
def stateWords (ws : List Word) : Nat := (if gCell ws = 0 then 2 else 1) * 256 * stateElem ws / 32

/-- The two planes are the same bytes in the same places (R221); PITCH says nothing of a plane of one row. -/
def gSame (ws : List Word) : Bool :=
  let i := planeAt ws 2
  let o := planeAt ws 8
  i.pound == o.pound && i.offset == o.offset && i.widthM1 == o.widthM1 && i.rowsM1 == o.rowsM1 &&
  (i.rowsM1 == 0 || (i.pitch == o.pitch && i.skew == o.skew))

/-- The context record's 64 words (06 "Commands"). -/
def ctxWords (sp : Spad) (ws : List Word) : List Word :=
  bytesToWords (readPound sp (bits (dw ws 14) 26 3) (bits (dw ws 14) 0 16 * 256) 256)

/-- Elements per row of a plane. -/
def rowElems (p : Plane) : Nat := p.rowBytes * 8 / fmtBits p.fmt

/-- The context record passes R235. -/
def ctxOk (ws cx : List Word) (m : Nat) : Bool :=
  let h := planeAt cx 8
  let g := planeAt cx 16
  bits (dw cx 0) 8 24 == 0 && bits (dw cx 1) 31 1 == 0 && bits (dw cx 1) 24 4 == 0 && bits (dw cx 1) 0 5 == 0 &&
  bits (dw cx 2) 31 1 == 0 && bits (dw cx 2) 24 4 == 0 && bits (dw cx 2) 0 5 == 0 && zeroWords cx 3 5 &&
  zeroWords cx 14 2 && zeroWords cx 22 42 &&
  (if gHout ws then planeOk cx 8 true && (h.fmt == 1 || h.fmt == 2 || h.fmt == 0x10) && rowElems h == 256 && h.rows == m
   else zeroWords cx 8 6) &&
  (if gPlane ws then planeOk cx 16 false && (g.fmt == 1 || g.fmt == 0x10) &&
      rowElems g == cellSlots (gCell ws) * 256 && g.rows == m
   else zeroWords cx 16 6)

/-- Port grants of the command, and U (06 Timing, R239). -/
def gpCycles (c : CoreSt) (ws cx : List Word) : Nat :=
  let i := planeAt ws 2
  let g := veGrants c 0 i + veGrants c 0 (planeAt ws 8) + (if gHout ws then veGrants c 0 (planeAt cx 8) else 0) +
    (if gPlane ws then veGrants c 0 (planeAt cx 16) else 0) + 2 + b2n (gInit ws) +
    (if gCell ws = 0 ∧ gPeep ws then 2 else if gCell ws = 4 then 1 else 0)
  max i.rows (portCycles (wheelSlots c.spad.wheelLo c.spad.wheelHi 1) g)

/-- Pipeline depth D. -/
def gpDepth : Nat → Nat
  | 0 => 40 | 1 => 34 | 2 => 32 | 3 => 18 | _ => 16

/-- The descriptor is legal (R234). -/
def gpLegal (sp : Spad) (ws : List Word) : Bool :=
  let i := planeAt ws 2
  let o := planeAt ws 8
  let m := i.rows
  let n := cellSlots (gCell ws)
  let fmt := if gBf16 ws then 0x01 else 0x10
  word0Ok ws && bits (dw ws 1) 5 2 == 0 && decide (gCell ws ≤ 4) && (!gPeep ws || gCell ws == 0) &&
  planeOk ws 2 false && planeOk ws 8 true && i.fmt == fmt && o.fmt == fmt &&
  decide (stateWords ws ≤ i.widthM1 + 1) && decide (stateWords ws ≤ o.widthM1 + 1) && i.rowsM1 == o.rowsM1 &&
  (gSame ws || !planesMeet sp i o) &&
  (if gPlane ws then decide (m ≤ 1024) && !gRescale ws && gRow0 ws == 0 && bits (dw ws 1) 8 8 == 0
   else decide (m ≤ 256) && decide (gRow0 ws + m ≤ 256) &&
     (List.range n).all (fun a => (List.range a).all (fun b => gSlotBank ws a != gSlotBank ws b)) &&
     bits (dw ws 1) (8 + 2 * n) (8 - 2 * n) == 0) &&
  decide (gRowBase ws + m ≤ 1024) && bits (dw ws 14) 29 3 == 0 && bits (dw ws 15) 31 1 == 0 &&
  bits (dw ws 15) 24 4 == 0 && bits (dw ws 15) 0 8 == 0

/-- One lane of a cell (R217): new h and, for LSTM, new c. `ps` holds p_i, p_f, p_o or α, β. -/
def cellLane (cell : Nat) (peep : Bool) (s : Nat → Word) (h c : Word) (ps : Nat → Word) : Word × Word :=
  match cell with
  | 0 =>
    let i := f32sigmoid (if peep then f32fma (ps 0) c (s 0) else s 0)
    let f := f32sigmoid (if peep then f32fma (ps 1) c (s 1) else s 1)
    let g := f32tanh (s 2)
    let c' := f32fma f c (f32mul i g)
    let o := f32sigmoid (if peep then f32fma (ps 2) c' (s 3) else s 3)
    (f32mul o (f32tanh c'), c')
  | 1 =>
    let r := f32sigmoid (s 0)
    let z := f32sigmoid (s 1)
    let n := f32tanh (f32fma r (s 3) (s 2))
    (f32fma z (f32add h (f32neg n)) n, c)
  | 2 =>
    let f := f32sigmoid (s 0)
    let t := f32tanh (f32fma f (s 2) (s 1))
    (f32fma f (f32add t (f32neg h)) h, c)
  | 3 => (f32tanh (s 0), c)
  | _ => (f32fma (ps 0) h (f32mul (ps 1) (s 0)), c)

/-- The banks that a GP_STEP reads. -/
def gpClaims (ws : List Word) : Nat :=
  if gPlane ws then 0
  else (List.range (cellSlots (gCell ws))).foldl (fun a q => a ||| readClaim (gSlotBank ws q)) 0

/-- A state value as FP32, and an FP32 value as stored state with its saturation (R220). -/
def stateIn (ws : List Word) (code : Nat) : Word := if gBf16 ws then widen 1 code 127 else BitVec.ofNat 32 code
def stateOut (ws : List Word) (w : Word) : Nat × Bool := if gBf16 ws then encodeSat 1 (ofF32 w) else (w.toNat, false)

/-- What one row of a step writes: state row bytes, H_OUT codes, saturations, non-finite results, stepped. -/
structure GpRow where
  state : List Byte
  hout : List Nat
  sats : Nat
  bad : Nat
  stepped : Bool
  deriving DecidableEq, Repr

/-- One row of a step (R217 to R226). Bytes of a STATE_OUT row beyond the state row of R219 stay. -/
def gpRow (c : CoreSt) (ws cx : List Word) (r : Nat) : GpRow :=
  let sp := c.spad
  let cell := gCell ws
  let units := bits (dw cx 0) 0 8 + 1
  let fmt := if gBf16 ws then 0x01 else 0x10
  let inB := readRow sp (planeAt ws 2) r
  let codes := unpack fmt (inB.take (stateWords ws * 32))
  let nEl := if cell = 0 then 512 else 256
  let maskPd := sp.pound (bits (dw ws 15) 28 3)
  let maskOff := bits (dw ws 15) 0 24
  let i := gRowBase ws + r
  let mbit (o : Nat) : Bool := bitAt (sp.bytes.read (physByte maskPd (maskOff + o + i / 8))).toNat (i % 8)
  let reset := mbit 0
  let hold := mbit 128
  let initW (k : Nat) : Word :=
    if gInit ws then poundWord sp (bits (dw cx 1) 28 3) (bits (dw cx 1) 0 24 + 4 * k) else 0
  let old (k : Nat) : Word := if reset then initW k else stateIn ws (codes.getD k 0)
  let slot (q j : Nat) : Word :=
    if gPlane ws then
      let g := planeAt cx 16
      let es := unpack g.fmt (readRow sp g r)
      if g.fmt = 1 then widen 1 (es.getD (256 * q + j) 0) 127 else BitVec.ofNat 32 (es.getD (256 * q + j) 0)
    else (c.me.readRow (gSlotBank ws q) (gRow0 ws + r) (gRescale ws)).getD j 0
  let param (k j : Nat) : Word := poundWord sp (bits (dw cx 2) 28 3) (bits (dw cx 2) 0 24 + 1024 * k + 4 * j)
  let lane (j : Nat) : Word × Word :=
    cellLane cell (gPeep ws) (fun q => slot q j) (old j) (old (256 + j)) (fun k => param k j)
  let news := if hold then [] else (List.range units).map lane
  let value (k : Nat) : Word :=
    if hold then old k else if k < 256 then (news.getD k (0, 0)).1 else (news.getD (k - 256) (0, 0)).2
  let outs := (List.range nEl).map (fun k =>
    if units ≤ k % 256 ∨ (hold ∧ !reset) then (codes.getD k 0, false) else stateOut ws (value k))
  let hp := planeAt cx 8
  let hs := (List.range 256).map (fun j => if units ≤ j then (0, false) else drainElem hp.fmt (value j))
  { state := packElems fmt (outs.map (·.1)) ++ (readRow sp (planeAt ws 8) r).drop (stateWords ws * 32),
    hout := hs.map (·.1),
    sats := countTrue (outs.map (·.2)) + (if gHout ws then countTrue (hs.map (·.2)) else 0),
    bad := if hold then 0 else ((news.map (fun v =>
      b2n (ofF32 v.1).nonfinite + (if cell = 0 then b2n (ofF32 v.2).nonfinite else 0))).sum),
    stepped := !hold }

/-- The physical addresses that a GP_STEP reads (R240). -/
def gpReads (sp : Spad) (ws cx : List Word) : List Nat :=
  let vec (pound o n : Nat) : List Nat := (List.range n).map (fun i => physByte (sp.pound pound) (o + i))
  let cell := gCell ws
  planeAddrs (sp.pound (planeAt ws 2).pound) (planeAt ws 2) ++
  (if gPlane ws then planeAddrs (sp.pound (planeAt cx 16).pound) (planeAt cx 16) else []) ++
  vec (bits (dw ws 14) 26 3) (bits (dw ws 14) 0 16 * 256) 256 ++ vec (bits (dw ws 15) 28 3) (bits (dw ws 15) 0 24) 256 ++
  (if gInit ws then vec (bits (dw cx 1) 28 3) (bits (dw cx 1) 0 24) (if cell = 0 then 2048 else 1024) else []) ++
  vec (bits (dw cx 2) 28 3) (bits (dw cx 2) 0 24) (if cell = 0 ∧ gPeep ws then 3072 else if cell = 4 then 2048 else 0)

/-- An earlier GP_STEP writes what this one reads and has not committed (R240). -/
def gpBlocked (c : CoreSt) (ws cx : List Word) : Bool :=
  let src := gpReads c.spad ws cx
  c.running.any (fun r => r.queue == 1 && r.dest.any (fun a => src.contains a))

/-- GP_STEP (R226, R234 to R240). -/
def gpStep (c : CoreSt) (ws : List Word) : EngRes :=
  let job := dJob ws
  let si := planeAt ws 2
  let so := planeAt ws 8
  let m := si.rows
  let sp := c.spad
  let cxPd := sp.pound (bits (dw ws 14) 26 3)
  if !gpLegal sp ws then .fault c Cause.gpIllegal
  else if !cxPd.allows job false (bits (dw ws 14) 0 16 * 256 + 256) then .fault c Cause.poundFault
  else
    let cx := ctxWords sp ws
    if gSame ws ∧ 60000 < gpCycles c ws cx then .fault c Cause.gpIllegal
    else if !ctxOk ws cx m then .fault c Cause.gpCtx
    else
      let vec := if gCell ws = 0 then 2048 else 1024
      let par := if gCell ws = 0 ∧ gPeep ws then 3072 else if gCell ws = 4 then 2048 else 0
      if !(planePound sp job si false && planePound sp job so true &&
          (sp.pound (bits (dw ws 15) 28 3)).allows job false (bits (dw ws 15) 0 24 + 256) &&
          (!gInit ws || (sp.pound (bits (dw cx 1) 28 3)).allows job false (bits (dw cx 1) 0 24 + vec)) &&
          (par == 0 || (sp.pound (bits (dw cx 2) 28 3)).allows job false (bits (dw cx 2) 0 24 + par)) &&
          (!gHout ws || planePound sp job (planeAt cx 8) true) &&
          (!gPlane ws || planePound sp job (planeAt cx 16) false)) then .fault c Cause.poundFault
      else if claimConflict c.running (gpClaims ws) ∨ gpBlocked c ws cx then .hold c
      else if !gPlane ws ∧ !gRescale ws ∧ (List.range (cellSlots (gCell ws))).any (fun q =>
          (List.range m).any (fun r => c.me.int32 (gSlotBank ws q) (gRow0 ws + r))) then
        .stopped c Cause.gpAccMode (planeAddrs (sp.pound so.pound) so ++
          (if gHout ws then planeAddrs (sp.pound (planeAt cx 8).pound) (planeAt cx 8) else []))
      else
        let dest := planeAddrs (sp.pound so.pound) so ++
          (if gHout ws then planeAddrs (sp.pound (planeAt cx 8).pound) (planeAt cx 8) else [])
        match ((tagCheck sp si).orElse (fun _ => if gPlane ws then tagCheck sp (planeAt cx 16) else none)).orElse
            (fun _ => (berthFull sp so).orElse (fun _ => if gHout ws then berthFull sp (planeAt cx 8) else none)) with
        | some f => .stopped c f dest
        | none =>
          let rows := (List.range m).map (gpRow c ws cx)
          let st := storePlane sp so (rows.flatMap (·.state)) []
          let hp := planeAt cx 8
          let ho := if gHout ws then storePlane st.1 hp (rows.flatMap (fun r => packElems hp.fmt r.hout)) [] else (st.1, [])
          let u := gpCycles c ws cx
          .run { c with spad := ho.1 }
            ([.busy 1 u, .gpCounts (rows.map (·.bad)).sum (rows.map (·.sats)).sum (rows.countP (·.stepped))] ++ st.2 ++ ho.2 ++ [.occ (drained sp si)] ++ (if gPlane ws then [.occ (drained sp (planeAt cx 16))] else []))
            dest (gpClaims ws) (gSame ws) (withMaint (u + gpDepth (gCell ws)))

end Sys2Proof.Machine
end

