-- ==== Sys2Proof/Machine/DmOps.lean ====
section
/-! DEFINITION. The data mover's commands: local and remote moves (02_core_and_scratchpad.md R75 to R84), HBM moves and the
sluice (10_hbm_and_sluice.md R350 to R371), link sends (11_elcor_links.md R410 to R417). -/

namespace Sys2Proof.Machine

/-! ## The HBM address map (R350, R353, R355) -/

/-- First barge of the partition areas, and barges of a GiB. -/
def areaBarge : Nat := 4194304
def gibBarges : Nat := 262144

/-- The stack of a barge (R350). -/
def stackOf (n : Nat) : Nat := (n % 4) ^^^ (n / 4 % 4) ^^^ (n / 16 % 4) ^^^ (n / 64 % 4)

/-- The pseudo-channel of a device byte address (R350). -/
def pcOf (addr : Nat) : Nat := addr % 4096 / 128

/-- The device barge of a partition's first barge. -/
def Part.firstBarge (p : Part) : Nat := areaBarge + p.baseGib * gibBarges

/-- The tag of a device barge. -/
def State.hbmTag (s : State) (n : Nat) : Tag := Table.look {} s.hbmTags n

/-- Bytes of a tag, as the digest and the tag region hold it (R355), and the tag that 16 bytes hold. -/
def Tag.bytes (t : Tag) : List Byte :=
  wordsToBytes [t.crc, t.tensor, t.block, pack [(b2n t.v, 31), (t.slen % 128, 16), (t.fmt % 256, 8), (t.gen % 256, 0)]]
def Tag.ofBytes (bs : List Byte) : Tag :=
  let ws := bytesToWords bs
  let w := (ws.getD 3 0).toNat
  { crc := ws.getD 0 0, tensor := ws.getD 1 0, block := ws.getD 2 0, v := bitAt w 31, slen := bits w 16 7, fmt := bits w 8 8,
    gen := bits w 0 8 }

/-- The tag region (R355): the barge whose tag a device address lies in. -/
def tagBarge (a : Nat) : Option Nat := if 0x3E0000000 ≤ a ∧ a < 0x3F8000000 then some ((a - 0x3E0000000) / 16) else none

/-- The words of a stream table entry (12 "Stream table entry"). -/
def MirrorEntry.words (e : MirrorEntry) : List Word :=
  if !e.valid then List.replicate 16 0
  else
    let st := e.stream.getD default
    [st.adm.handle,
     pack [(1, 31), (b2n e.cur, 30), (b2n e.applyPend, 29), (st.adm.job % 128, 13), (st.adm.cohort % 64, 7), (e.state4k % 128, 0)],
     pack [(e.mirrorSeq % 65536, 16), (e.relaySeq % 65536, 0)]] ++ List.replicate 13 0

/-- A bound chip's stream table and header stand in the mirror area (R430): the byte at device address `a` there. -/
def State.mirrorByte (s : State) (a : Nat) : Option Byte :=
  if s.pair.state = .unbound then none
  else if 0x10000 ≤ a ∧ a < 0x20000 then some ((wordsToBytes (s.mirrorEntry ((a - 0x10000) / 64)).words).getD (a % 64) 0)
  else if a < 0x1000 then
    let n := s.pair.mirror.countP (fun e => e.2.valid)
    some (Config.mirrorHeader s.pair.twinChip s.pair.epoch.toNat n (b2n s.pair.ownSynced + 2 * b2n s.pair.twinSynced) a)
  else none

/-- One byte of device address space as an access past the tags sees it (R354, R355, R430, R508), and bytes stored there. DESIGN CHOICE
(log 151): the header and the table, which the chip keeps, show no such store. -/
def State.devByte (s : State) (a : Nat) : Byte :=
  match tagBarge a with
  | some n => (s.hbmTag n).bytes.getD (a % 16) 0
  | none => (s.mirrorByte a).getD (s.hbm.read a)
def State.devPut (s : State) (a : Nat) (b : Byte) : State :=
  match tagBarge a with
  | some n => { s with hbmTags := Table.put {} s.hbmTags n (Tag.ofBytes ((s.hbmTag n).bytes.set (a % 16) b)) }
  | none => { s with hbm := s.hbm.write a b }
def State.devWrite (s : State) (a : Nat) (bs : List Byte) : State :=
  ((List.range bs.length).zip bs).foldl (fun s e => s.devPut (a + e.1) e.2) s

/-- The bytes of a device barge. -/
def State.hbmBarge (s : State) (n len : Nat) : List Byte := s.hbm.readN (n * 4096) len

/-- One corrected beat at a device address (R371): counted, and the third of a row within 24 h noted in the ledger. A row
is named by stack, pseudo-channel and stack-local barge index. -/
def State.hbmCorrected (s : State) (addr : Nat) : State :=
  let n := addr / 4096
  let k := stackOf n
  let pc := pcOf addr
  let key := n / 4 * 32 + pc
  let old := (Table.look [] (s.stack k).rowCe key).filter (fun t => decide (s.time.up < t + dayNs))
  let recent := old ++ [s.time.up]
  let s1 := s.modStack k (fun v => { v with
    ce := satAdd v.ce 1, pcCe := Table.upd 0 v.pcCe pc (fun w => satAdd w 1), rowCe := Table.put [] v.rowCe key recent })
  if recent.length = 3 then
    s1.ledgerNow (fun l => { l with hbmPending := (l.hbmPending ++ [(k, pc, n / 4)]).eraseDups })
  else s1

/-! ## The sluice (R363 to R369) -/

/-- Number of values with code length `len`, and the coded values in canonical order. -/
def codeCount (table : List Byte) (len : Nat) : Nat := table.countP (fun b => b.toNat == len)
def codeOrder (table : List Byte) : List Nat :=
  (List.range 12).flatMap (fun l => (List.range 256).filter (fun v => (table.getD v 0).toNat == l + 1))

/-- A table is absent, or valid (R363). -/
def tableAbsent (table : List Byte) : Bool := table.all (· == 0)
def tableValid (table : List Byte) : Bool :=
  table.length == 256 && table.all (fun b => decide (b.toNat ≤ 12)) &&
  decide (2 ≤ table.countP (fun b => b != 0)) &&
  ((table.map (fun b => if b = 0 then 0 else 2 ^ (12 - b.toNat))).sum == 4096)

/-- One code, most significant bit first: `code` and `first` are the code read and the first code of its length,
`index` the values with shorter codes; `fuel` lengths remain. -/
def decodeCode (table : List Byte) (order : List Nat) (bs : List Bool) (len code first index : Nat) : Nat → Option (Nat × List Bool)
  | 0 => none
  | fuel + 1 =>
    match bs with
    | [] => none
    | b :: rest =>
      let code := code * 2 + b2n b
      let n := codeCount table len
      if code < first + n then some (order.getD (index + code - first) 0, rest)
      else decodeCode table order rest (len + 1) code ((first + n) * 2) (index + n) fuel

/-- Exactly `n` values from a bitstream. -/
def decodeCodes (table : List Byte) (order : List Nat) : Nat → List Bool → Option (List Byte)
  | 0, _ => some []
  | n + 1, bs =>
    match decodeCode table order bs 1 0 0 0 12 with
    | none => none
    | some (v, rest) => (decodeCodes table order n rest).map (BitVec.ofNat 8 v :: ·)

/-- The bits of bytes, bit 7 first (R367). -/
def bitStream (bs : List Byte) : List Bool := bs.flatMap (fun b => (List.range 8).map (fun i => bitAt b.toNat (7 - i)))

/-- The sluice's expansion of a barge's stored bytes; `none` is SLUICE_BAD (R366, R367, R369). -/
def sluiceExpand (tables : List (List Byte)) (slen : Nat) (stored : List Byte) : Option (List Byte) :=
  if slen = 64 then some stored
  else
    let h := leNat (stored.take 4)
    let t := tables.getD (h % 16) []
    if h / 16 ≠ 1 ∨ tableAbsent t then none
    else decodeCodes t (codeOrder t) 4096 (bitStream (stored.drop 4))

/-! ## Common parts of DM descriptors -/

/-- Word 0 is legal and the reserved field of word 1 is zero. -/
def dmWordsOk (ws : List Word) : Bool := word0Ok ws && bits (dw ws 1) 5 27 == 0

/-- TENSOR_IDs of the barges of a tagged source, in order; none for an untagged source. -/
def sourceTensors (sp : Spad) (p : Plane) : List Word :=
  if p.tagmode = 0 then [] else (p.barges (sp.pound p.pound)).map (fun b => (sp.tag b.1).tensor)

/-- The CRC comparison of R76: each destination barge's CRC against the source barge's. -/
def copyCrcOk (sp : Spad) (src : Plane) (tags : List (Nat × Tag)) : Bool :=
  let cs := (src.barges (sp.pound src.pound)).map (fun b => (sp.tag b.1).crc)
  (tags.zip cs).all (fun e => e.1.2.crc == e.2)

/-- Requests of one barge each at a partition's arbiter: the barges of command `cmd` from index `i` on, by their lengths. -/
def bargeReqs (weir job core link cmd i now : Nat) (bulk : Bool) (lens : List Nat) : List BargeReq :=
  ((List.range lens.length).zip lens).map (fun e =>
    { weir := weir, job := job, core := core, cls := if bulk then 2 else 0, since := now, age := 0, bytes := e.2, link := link,
      cmd := cmd, index := i + e.1 })

/-- Put requests at the arbiters of a core's partition (R339). -/
def State.request (s : State) (c weir job link cmd i : Nat) (lens : List Nat) : State :=
  s.modReqs (partOfCore c) (· ++ bargeReqs weir job c link cmd i s.time.up (s.job job).bulk lens)

/-- A command's outcome beside its core: the state (its arbiters and counters) and the engine's answer. -/
abbrev DmRes := State × EngRes

/-! ## Local moves (R75 to R77) -/


/-- DM_COPY. DESIGN CHOICE (log 134): its words 14 and 15, to which the table gives no meaning, must be 0. -/
def dmCopy (s : State) (c : CoreSt) (ws : List Word) : DmRes :=
  let sp := planeAt ws 2
  let dp := planeAt ws 8
  let job := dJob ws
  if !(dmWordsOk ws && planeOk ws 2 false && planeOk ws 8 true && zeroWords ws 14 2 && sp.count == dp.count &&
      !planesMeet c.spad sp dp) then
    (s, .fault c Cause.dmIllegal)
  else if !(planePound c.spad job sp false && planePound c.spad job dp true) then (s, .fault c Cause.poundFault)
  else
    let dest := planeAddrs (c.spad.pound dp.pound) dp
    match (tagCheck c.spad sp).orElse (fun _ => berthFull c.spad dp) with
    | some f => (s, .stopped c f dest)
    | none =>
      let out := storePlane c.spad dp (readPlane c.spad sp) (sourceTensors c.spad sp)
      let tags := newTags out.1 dp (sourceTensors c.spad sp)
      if sp.tagmode ≠ 0 ∧ dp.tagmode ≠ 0 ∧ !copyCrcOk c.spad sp tags then (s, .stopped c Cause.blockCrc dest)
      else
        (s, .run { c with spad := out.1 } (out.2 ++ [.occ (drained c.spad sp)]) dest 0 false
          (withMaint (14 + ceilDiv sp.count 128)))

/-- DM_FILL: the pattern repeats every 4 bytes. -/
def dmFill (s : State) (c : CoreSt) (ws : List Word) : DmRes :=
  let dp := planeAt ws 8
  if !(dmWordsOk ws && zeroWords ws 2 6 && planeOk ws 8 true && zeroWords ws 15 1) then (s, .fault c Cause.dmIllegal)
  else if !planePound c.spad (dJob ws) dp true then (s, .fault c Cause.poundFault)
  else
    match berthFull c.spad dp with
    | some f => (s, .stopped c f (planeAddrs (c.spad.pound dp.pound) dp))
    | none =>
      let pat := leBytes 4 (dw ws 14)
      let bs := (List.range dp.count).map (fun i => pat.getD (i % 4) 0)
      let out := storePlane c.spad dp bs []
      (s, .run { c with spad := out.1 } out.2 (planeAddrs (c.spad.pound dp.pound) dp) 0 false
        (withMaint (7 + ceilDiv dp.count 256)))

/-! ## Remote moves (R63, R81 to R84) -/

/-- Form of a remote command: both planes legal, equal counts, another listed core in word 14. -/
def remoteOk (core : Nat) (ws : List Word) : Bool :=
  dmWordsOk ws && planeOk ws 2 false && planeOk ws 8 true && zeroWords ws 15 1 && bits (dw ws 14) 5 27 == 0 &&
  decide (dw ws 14 < 24) && dw ws 14 != core && (planeAt ws 2).count == (planeAt ws 8).count

/-- The credit entry of a send: the first valid one of the job for the remote core and pound (R81). -/
def creditFor (sp : Spad) (job core pound : Nat) : Option (Nat × Credit) :=
  sp.credits.find? (fun e => e.2.valid && e.2.job == job && e.2.destCore == core && e.2.destPound == pound)

/-- The barges of a send, each byte with its place in the destination plane. -/
def sendBarges (bs : List Byte) : List (List (Nat × Byte)) :=
  (List.range (ceilDiv bs.length 4096)).map (fun i =>
    let b := (bs.drop (4096 * i)).take 4096
    (List.range b.length).zip b |>.map (fun e => (4096 * i + e.1, e.2)))

/-- A credit leaves its entry with a barge (R82). -/
def Spad.takeCredit (sp : Spad) (k : Nat) : Spad :=
  { sp with credits := Table.upd {} sp.credits k (fun e => { e with avail := e.avail - 1 }) }

/-- DM_SEND_CORE: its first barge takes its credit and waits at the NoC injection weir, and the others follow one by one (R80, R82,
`State.grantBarge`); tags and signal come with the commit flit (R83). It waits while no credit is free. DESIGN CHOICE (log 138): it
starts once the barges of an earlier send have left. -/
def dmSendCore (s : State) (core : Nat) (c : CoreSt) (stamp : Nat) (ws : List Word) : DmRes :=
  let sp := planeAt ws 2
  let dp := (planeAt ws 8).flat
  let job := dJob ws
  let dest := dw ws 14
  if !remoteOk core ws then (s, .fault c Cause.dmIllegal)
  else if !planePound c.spad job sp false then (s, .fault c Cause.poundFault)
  else
    match creditFor c.spad job dest dp.pound with
    | none => (s, .fault c Cause.creditMissing)
    | some (k, cr) =>
      if c.sends ≠ [] then (s, .hold c)
      else if cr.avail = 0 then (s, .hold { c with creditWait := some (c.creditWait.getD s.time.up) })
      else
        match tagCheck c.spad sp with
        | some f => (s, .stopped { c with creditWait := none } f [])
        | none =>
          let bs := readPlane c.spad sp
          let rs := (s.core dest).spad
          let tensors := sourceTensors c.spad sp
          let tags := if dp.tagmode = 0 then [] else newTags (writePlane rs dp bs) dp tensors
          let gone := if dp.tagmode = 0 then (dp.barges (rs.pound dp.pound)).map (·.1) else []
          if sp.tagmode ≠ 0 ∧ dp.tagmode ≠ 0 ∧ !copyCrcOk c.spad sp tags then
            (s, .stopped { c with creditWait := none } Cause.blockCrc [])
          else
            let b := ceilDiv bs.length 4096
            let sig := (dSignal core ws).filter (fun g => g.core == dest)
            let send : Send := { cmd := stamp, job := job, dest := dest, credit := k, plane := dp, todo := sendBarges bs }
            let c1 := { c with creditWait := none, spad := c.spad.takeCredit k, sends := [send] }
            let h := hops core dest
            let t := if ceilDiv (51 + 6 * h) 16 ≤ cr.count then 28 + 3 * h + ceilDiv bs.length 256
              else 28 + 3 * h + (b - 1) * ceilDiv (51 + 6 * h) cr.count + 16
            (s.request core 2 job 0 stamp 0 [min 4096 bs.length],
              .run c1 [.remote dest gone tags (filled rs dp) sig, .occ (drained c.spad sp)] [] 0 false (withMaint t))

/-- DM_FETCH_CORE: the remote plane is checked under R63 and read, and the local one written; its barges pass the NoC injection weir of
the fetching job's partition (DESIGN CHOICE, log 137). The remote plane is drained at the command's commit (R73). -/
def dmFetchCore (s : State) (core : Nat) (c : CoreSt) (stamp : Nat) (ws : List Word) : DmRes :=
  let sp := (planeAt ws 2).flat
  let dp := planeAt ws 8
  let job := dJob ws
  let rem := dw ws 14
  let rs := (s.core rem).spad
  if !remoteOk core ws then (s, .fault c Cause.dmIllegal)
  else if !(planePound c.spad job dp true && (rs.pound sp.pound).allowsRemote false sp.endb) then
    (s, .fault c Cause.poundFault)
  else
    let dest := planeAddrs (c.spad.pound dp.pound) dp
    match (tagCheck rs sp).orElse (fun _ => berthFull c.spad dp) with
    | some f => (s, .stopped c f dest)
    | none =>
      let bs := readPlane rs sp
      let out := storePlane c.spad dp bs (sourceTensors rs sp)
      let tags := newTags out.1 dp (sourceTensors rs sp)
      if sp.tagmode ≠ 0 ∧ dp.tagmode ≠ 0 ∧ !copyCrcOk rs sp tags then (s, .stopped c Cause.blockCrc dest)
      else
        (s.request core 2 job 0 stamp 0 ((sendBarges bs).map List.length),
          .run { c with spad := out.1 } (out.2 ++ [.occAt rem (drained rs sp)]) dest 0 false
            (withMaint (42 + 6 * hops core rem + ceilDiv bs.length 256)))

/-! ## HBM moves (R358 to R362) -/

def hBarge (ws : List Word) : Nat := bits (dw ws 14) 0 25
def hSluice (ws : List Word) : Bool := bitAt (dw ws 15) 31
def hWslen (ws : List Word) : Nat := bits (dw ws 15) 16 7

/-- Form of an HBM command whose local plane is at word `i` and whose other plane words start at `z`. -/
def hbmOk (ws : List Word) (i z : Nat) (write : Bool) : Bool :=
  let p := planeAt ws i
  dmWordsOk ws && planeOk ws i (!write) && zeroWords ws z 6 && bits (dw ws 14) 25 7 == 0 && bits (dw ws 15) 23 8 == 0 &&
  bits (dw ws 15) 0 16 == 0 && p.offset % 4096 == 0 && p.count % 4096 == 0 && decide (hWslen ws ≤ 63) &&
  (if write then !hSluice ws && (hWslen ws == 0 || p.tagmode != 0)
   else hWslen ws == 0 && (!hSluice ws || p.tagmode != 0))

/-- Barges outside the partition's area (R360). -/
def State.outsideArea (s : State) (p first n : Nat) : Bool :=
  let q := s.part p
  !q.configured || decide (q.hbmGib * gibBarges < first + n)

/-- Barges that touch a weight range of the partition. -/
def State.inRanges (s : State) (p first n : Nat) : Bool :=
  s.ranges.any (fun r => r.part == p && decide (first < r.first + r.count) && decide (r.first < first + n))

/-- One barge of an HBM read (R356, R357, R361): its 4,096 bytes, or the fault. `j` is its index in the plane. -/
def readBarge (s : State) (tables : List (List Byte)) (p : Plane) (sluice : Bool) (n j : Nat) : Nat ⊕ List Byte :=
  let t := s.hbmTag n
  if p.tagmode = 0 then .inr (s.hbmBarge n 4096)
  else if !t.v ∨ t.gen ≠ p.gen then .inl Cause.blockSeq
  else if p.tagmode = 2 ∧ (t.tensor.toNat ≠ p.tensor ∨ t.block.toNat ≠ (p.bidx + j) % 2 ^ 32) then .inl Cause.blockId
  else if p.fmt ≠ 0 ∧ t.fmt ≠ p.fmt then .inl Cause.blockId
  else
    let stored := s.hbmBarge n (t.slen * 64)
    if crc32c stored ≠ t.crc then .inl Cause.blockCrc
    else if sluice then
      match sluiceExpand tables t.slen stored with
      | some bs => .inr bs
      | none => .inl Cause.sluiceBad
    else .inr (stored ++ List.replicate (4096 - t.slen * 64) 0)

/-- Stored bytes that a read fetches of a barge. -/
def State.storedLen (s : State) (p : Plane) (n : Nat) : Nat := if p.tagmode = 0 then 4096 else (s.hbmTag n).slen * 64

/-- Cycles of a barge at a weir of RATE `rate` (R362): ⌈bytes / (rate × 14.974)⌉, at least P(2). -/
def weirCycles (rate bytes p2 : Nat) : Nat := if rate = 0 then p2 else max (ceilDiv (bytes * 1000) (rate * 14974)) p2

/-- A_w: the cycles that a LATENCY job's command may wait behind two granted barges at the RATE of the HBM read weir (R362). -/
def State.hbmWait (s : State) (core job : Nat) : Nat :=
  let rate := (Table.look {} (s.part (partOfCore core)).weirs 0).rate
  if (s.job job).bulk ∨ rate = 0 then 0 else 2 * ceilDiv 4096000 (rate * 14974)

/-- DM_HBM_READ: its requests go to the HBM read arbiter, and each barge is read, checked and written at its grant (R351,
`State.readGranted`). `corrected` are the device addresses of the beats that the controller corrects (R371). -/
def dmHbmRead (s : State) (core : Nat) (c : CoreSt) (stamp : Nat) (ws : List Word) (corrected : List Nat) : DmRes :=
  let dp := (planeAt ws 8).flat
  let job := dJob ws
  let p := partOfCore core
  let n := dp.count / 4096
  let first := (s.part p).firstBarge + hBarge ws
  if !hbmOk ws 8 2 false then (s, .fault c Cause.dmIllegal)
  else if !planePound c.spad job dp true then (s, .fault c Cause.poundFault)
  else if s.outsideArea p (hBarge ws) n then (s, .fault c Cause.hbmRange)
  else
    let dest := planeAddrs (c.spad.pound dp.pound) dp
    match berthFull c.spad dp with
    | some f => (s, .stopped c f dest)
    | none =>
      let lens := (List.range n).map (fun j => s.storedLen dp (first + j))
      let rate := (Table.look {} (s.part p).weirs 0).rate
      let p2 := portCycles (wheelSlots c.spad.wheelLo c.spad.wheelHi 3) 2
      let t := 40 + 54 + 336 + (if hSluice ws then 272 else 0) + s.hbmWait core job + (lens.map (fun l => weirCycles rate l p2)).sum
      let effs := if dp.tagmode = 0 then [Eff.untag ((dp.barges (c.spad.pound dp.pound)).map (·.1))]
        else [.occ (filled c.spad dp)]
      ((s.each corrected State.hbmCorrected).request core 0 job 0 stamp 0 lens, .run c effs dest 0 false (withMaint t))

/-- DM_HBM_WRITE: the bytes and tags stand at the commit (R351, R361). -/
def dmHbmWrite (s : State) (core : Nat) (c : CoreSt) (stamp : Nat) (ws : List Word) : DmRes :=
  let sp := (planeAt ws 2).flat
  let job := dJob ws
  let p := partOfCore core
  let n := sp.count / 4096
  let first := (s.part p).firstBarge + hBarge ws
  let units := if hWslen ws = 0 then 64 else hWslen ws
  if !hbmOk ws 2 8 true then (s, .fault c Cause.dmIllegal)
  else if !planePound c.spad job sp false then (s, .fault c Cause.poundFault)
  else if s.outsideArea p (hBarge ws) n ∨ s.inRanges p (hBarge ws) n then (s, .fault c Cause.hbmRange)
  else
    match tagCheck c.spad sp with
    | some f => (s, .stopped c f [])
    | none =>
      let bs := readPlane c.spad sp
      let cut (j : Nat) : List Byte := (bs.drop (4096 * j)).take (units * 64)
      let tag (j : Nat) : Tag :=
        if sp.tagmode = 0 then { (s.hbmTag (first + j)) with v := false }
        else { crc := crc32c (cut j), tensor := BitVec.ofNat 32 sp.tensor, block := BitVec.ofNat 32 (sp.bidx + j),
               v := true, slen := units, fmt := sp.fmt, gen := sp.gen }
      let store := (List.range n).flatMap (fun j =>
        (List.range (units * 64)).zip (cut j) |>.map (fun e => ((first + j) * 4096 + e.1, e.2)))
      let rate := (Table.look {} (s.part p).weirs 1).rate
      let p2 := portCycles (wheelSlots c.spad.wheelLo c.spad.wheelHi 3) 2
      let t := 40 + 54 + 168 + s.hbmWait core job + n * weirCycles rate (units * 64) p2
      (s.request core 1 job 0 stamp 0 (List.replicate n (units * 64)),
        .run c [.hbm store, .hbmTags ((List.range n).map (fun j => (first + j, tag j))),
          .hbmWrites ((List.range n).map (fun j => (stackOf (first + j), units * 64))), .occ (drained c.spad sp)] []
          0 false (withMaint t))

/-! ## Link sends (R410 to R417) -/

def lDestChip (ws : List Word) : Nat := bits (dw ws 14) 21 11
def lDestCore (ws : List Word) : Nat := bits (dw ws 14) 16 5
def lVc (ws : List Word) : Nat := bits (dw ws 14) 14 2
def lStripe (ws : List Word) : Bool := bitAt (dw ws 14) 13
def lRetain (ws : List Word) : Bool := bitAt (dw ws 14) 12
def lRetLock (ws : List Word) : Nat := bits (dw ws 14) 0 8
def lChunk (ws : List Word) : Nat := bits (dw ws 15) 16 16
def lCohort (ws : List Word) : Nat := bits (dw ws 15) 10 6

/-- Form of a link send (R411). -/
def linkOk (chip : Nat) (ws : List Word) : Bool :=
  let sp := planeAt ws 2
  let dp := planeAt ws 8
  dmWordsOk ws && planeOk ws 2 false && planeOk ws 8 true && sp.tagmode != 0 && dp.tagmode != 0 && sp.count == dp.count &&
  lDestChip ws != chip && decide (lDestCore ws < 24) && lVc ws == 0 && bits (dw ws 14) 8 4 == 0 &&
  bits (dw ws 15) 0 10 == 0 && decide (lCohort ws ≤ 31) &&
  (lRetain ws || (lRetLock ws == 0 && lChunk ws == 0 && lCohort ws == 0))

/-- The signal of a link send: SIG_CORE 0x1F stands for DEST_CORE. -/
def linkSignal (ws : List Word) : Option Signal :=
  let c := bits (dw ws 1) 0 5
  if bits (dw ws 0) 16 2 = 0 then none
  else some { core := if c = 0x1F then lDestCore ws else c, lock := bits (dw ws 0) 24 8, kind := bits (dw ws 0) 16 2, amount := 1 }

/-- The part of a send's barges that link `k` of `n` carries (R408). -/
def linkPart (bargesOf : List (List Byte × Tag)) (n k : Nat) : List (List Byte × Tag) :=
  (((List.range bargesOf.length).zip bargesOf).filter (fun e => e.1 % n == k)).map (·.2)

/-- The RUN, barges and COMMIT of a send on one link (R386, R415). -/
def linkMsgs (run : Run) (sig : Option Signal) (bs : List (List Byte × Tag)) : List LinkMsg :=
  [.run { run with barges := bs.length }] ++ bs.map (fun e => .barge run.vc run.xfer e.1 e.2) ++ [.commit run.vc run.xfer 1 sig]

/-- What a send's next `n` barges put into the egress of its link, the RUN before the first of them (R386). -/
def LinkSend.msgs (x : LinkSend) (n : Nat) : List LinkMsg :=
  (if x.begun then [] else [.run x.run]) ++ (x.todo.take n).map (fun e => .barge x.run.vc x.run.xfer e.1 e.2)

/-- A send after `n` of its barges have entered the egress; nothing is left of it after the last. -/
def LinkSend.after (x : LinkSend) (n up : Nat) : List LinkSend :=
  if x.todo.drop n = [] then [] else [{ x with todo := x.todo.drop n, begun := true, since := up }]

/-- The row marks of a cohort's rows, as a retained send carries them (R728): each row's table word, and the word of a FREE row where this
chunk is its stream's last, whatever END_STEP says (R231; DEDUCED, log 147). -/
def State.rowMarks (s : State) (j k : Nat) : List (Nat × Nat) :=
  let spec := (s.job j).spec k
  let last := (OTable.entries s.streams).filterMap (fun e =>
    if e.2.adm.job = j ∧ e.2.adm.cohort = k ∧ e.2.state = .closing then some e.2.adm.row else none)
  (List.range spec.rows).map (fun i =>
    let r := spec.row0 + i
    (r, if last.contains r then 0x3FF else s.rowEntry j r))

/-- The chunk task that a job's commands serve, as (cohort, chunk sequence): that of the cohort in compute whose step began last. DESIGN
CHOICE (log 59): a descriptor names no cohort of its own job. -/
def Job.task (b : Job) : Nat × Cohort :=
  let cs := b.cohorts.filter (fun e => e.2.phase == .computing)
  cs.foldl (fun a e => if a.2.bk < e.2.bk then e else a) (cs.headD (0, b.cohort 0))

/-- The pipeline's T0 of the chunk that a job computes (R30): in the first stage the latest T0 of the cohort's streams. DESIGN CHOICE (log
59): T0 is a stream's, a RUN carries one. -/
def State.pipelineT0 (s : State) (j : Nat) : Nat :=
  let h := (s.job j).task.2
  if (s.job j).image.shape.linkFed then h.pipeT0 h.seq else h.t0

/-- DM_LINK_SEND. Its barges ask at the Elcor egress weir one by one and enter the egress of their link, each with a credit (R339, R391,
R414, `State.linkGranted`); on a twin link, which has no weir, as credits allow. The transfer ID carries the job in bits [6:0], above it the
chip and a number drawn in order. -/
def dmLinkSend (s : State) (core : Nat) (c : CoreSt) (stamp : Nat) (ws : List Word) : DmRes :=
  let sp := (planeAt ws 2).flat
  let dp := (planeAt ws 8).flat
  let job := dJob ws
  let dest := s.target (lDestChip ws)
  let route := s.pathTo dest
  let links := if lStripe ws then route else route.take 1
  let held := c.retained.length + c.running.countP (fun r => r.effects.any (fun e => match e with | .retain .. => true | _ => false))
  if !linkOk s.time.chip ws then (s, .fault c Cause.dmIllegal)
  else if !planePound c.spad job sp false then (s, .fault c Cause.poundFault)
  else if links = [] ∨ (lStripe ws ∧ links.length < 2) then (s, .fault c Cause.linkNoRoute)
  else if links.any (fun l => (s.link l).state != .up) then (s, .fault c Cause.linkDown)
  else if lRetain ws ∧ 32 ≤ held then (s, .fault c Cause.retainFull)
  else
    match tagCheck c.spad sp with
    | some f => (s, .stopped c f [])
    | none =>
      let d := s.draw
      let xfer := (d.1 * 2048 + s.time.chip) * 128 + job
      let bs := readPlane c.spad sp
      let tensors := sourceTensors c.spad sp
      let n := bs.length / 4096
      let brg := (List.range n).map (fun j =>
        let b := (bs.drop (4096 * j)).take 4096
        (b, ({ crc := crc32c b, tensor := tensors.getD j (BitVec.ofNat 32 dp.tensor), block := BitVec.ofNat 32 (dp.bidx + j),
               v := true, slen := 64, fmt := dp.fmt, gen := dp.gen } : Tag)))
      let run : Run := { vc := 0, xfer := xfer, srcChip := s.time.chip, srcCore := core, destChip := dest, barges := n,
                         dest := .plane (lDestCore ws) dp, retain := lRetain ws, cohort := lCohort ws, chunk := lChunk ws,
                         t0 := if lRetain ws then s.pipelineT0 job else 0,
                         marks := if lRetain ws then s.rowMarks job (s.job job).task.1 else [] }
      let parts : List LinkSend := (List.range links.length).zip links |>.map (fun e =>
        let mine := linkPart brg links.length e.1
        { cmd := stamp, job := job, link := e.2, run := { run with vc := bargeVc e.2, barges := mine.length }, todo := mine,
          since := s.time.up })
      let ends := parts.map (fun x => Eff.link ((if x.todo = [] then [.run x.run] else []) ++
        [.commit x.run.vc xfer links.length (linkSignal ws)]) x.link)
      let keep := if lRetain ws then
          [Eff.retain (lCohort ws) (lChunk ws) dest (lRetLock ws) xfer (links.headD 0) (linkMsgs run (linkSignal ws) brg)
            ((s.job job).task.1, (s.job job).task.2.seq)]
        else []
      let now (x : LinkSend) : Nat := if x.link < 32 then 0 else (s.link x.link).spare x.link
      let s1 := d.2.each parts (fun s x =>
        if x.link < 32 then s.request core 3 job x.link stamp 0 (List.replicate x.todo.length 4096)
        else if now x = 0 then s else s.sendOn x.link (x.msgs (now x)))
      let left := parts.flatMap (fun x => if x.todo = [] then [] else if now x = 0 then [x] else x.after (now x) s.time.up)
      let rate := (Table.look {} (s.part (partOfCore core)).weirs (3 + links.headD 0)).rate
      let p2 := portCycles (wheelSlots c.spad.wheelLo c.spad.wheelHi 3) 2
      let per1 := if rate = 0 then p2 else max (ceilDiv 409600000 (links.length * rate * 16276)) p2
      if !copyCrcOk c.spad sp ((List.range n).zip (brg.map (·.2))) then (s, .stopped c Cause.blockCrc [])
      else
        (s1, .run { c with linkSends := c.linkSends ++ left } (ends ++ keep ++ [.occ (drained c.spad sp)]) [] 0 false
          (withMaint (40 + 54 + n * per1 + 2)))

end Sys2Proof.Machine
end

