-- ==== Sys2Proof/Machine/EngOps.lean ====
section
/-! DEFINITION. How a command at the head of its queue starts, faults or waits (09_queues_jobs_partitions.md R321, R322, R325),
its commit (R324), and the lock commands (08_locks.md R288 to R303). -/

namespace Sys2Proof.Machine

/-! ## Starting (R321, R322, R334) -/

/-- A queue stalled by a switch: for every job from the end of step 1 on (R334), for the victim from the start. -/
def State.stalledBy (s : State) (c job : Nat) : Bool :=
  match (s.part (partOfCore c)).switch with
  | none => false
  | some w => w.parkedAt.isSome || optIs w.victim job

/-- The opcodes that each queue accepts (09 "Queues"). -/
def opListedFor (q op : Nat) : Bool :=
  (0xE0 ≤ op && op ≤ 0xE3) ||
  (match q with
   | 0 => 1 ≤ op && op ≤ 9
   | 1 => op == 1
   | 2 => 1 ≤ op && op ≤ 3
   | _ => (1 ≤ op && op ≤ 4) || op == 8 || op == 9 || op == 0x0C)

/-- The fault of an illegal descriptor in each queue. -/
def illegalCause (q : Nat) : Nat :=
  match q with | 0 => Cause.meIllegal | 1 => Cause.gpIllegal | 2 => Cause.veIllegal | _ => Cause.dmIllegal

/-- A descriptor names a RUNNING job of the core's partition (R322). -/
def State.jobRuns (s : State) (c job : Nat) : Bool :=
  partOfJob job == partOfCore c && (s.job job).state == .running

/-- A signal on the command's own core names a valid lock of its job (R299). -/
def CoreSt.ownsSignal (c : CoreSt) (core job : Nat) (g : Option Signal) : Bool :=
  match g with
  | some g => g.core != core || ((c.lock g.lock).valid && (c.lock g.lock).owner == job)
  | none => true

/-- Drop the head and kill every job of the partition (R322). -/
def State.queueJobFault (s : State) (c q : Nat) : State :=
  (s.modCore c (fun k => k.pop q s.time.up)).killPartition (partOfCore c) Cause.queueJob 0 { core := some c }

/-- Kill the job of a faulting command (R62, R69, R75). -/
def State.faultJob (s : State) (c job cause detail : Nat) : State :=
  { s with free := s.free + 1 }.killJob job (some cause) detail { core := some c } false

/-- Take an engine's answer for the head of queue `q`. -/
def State.takeRes (s : State) (c q : Nat) (e : QEntry) (sig : Option Signal) : EngRes → State
  | .hold k => s.setCore c k
  | .fault k cause => (s.setCore c k).faultJob c e.job cause 0
  | .stopped k cause dest => (s.setCore c (k.loseBytes s.free dest)).faultJob c e.job cause 0
  | .run k effects dest claims nonpre cycles =>
    let r : Running := { queue := q, job := e.job, entry := e, effects := effects ++ (sig.map Eff.signal).toList,
                         nonpre := nonpre, claims := claims, dest := dest, cycles := cycles }
    s.setCore c { (k.pop q s.time.up) with running := k.running ++ [r] }

/-- The relay of a chunk that the job computes is neither acknowledged nor given up: compute, in the matrix, gate and vector engines,
has not begun (R31, R32). DESIGN CHOICE (log 59): a descriptor names no cohort, so while another cohort of the job is in compute its
commands run. -/
def Job.computeHeld (b : Job) : Bool :=
  b.cohorts.any (fun e => e.2.phase == .waitRelay) && !b.cohorts.any (fun e => e.2.phase == .computing)

/-- A command at the head of queue `q` waits for the compute window of its job's chunk (R31, R32). -/
def State.awaitsCompute (s : State) (q job : Nat) : Bool := decide (q < 3) && (s.job job).computeHeld

/-- The bank claims that a descriptor at the head of queue `q` requests (R129). -/
def CoreSt.headClaims (k : CoreSt) (q : Nat) (e : QEntry) : Nat :=
  match q, e.op with
  | 0, 0x02 => writeClaim (mBank e.words)
  | 0, 0x04 => writeClaim (mBank e.words)
  | 0, 0x05 => writeClaim (mBank e.words)
  | 0, 0x08 => writeClaim (mBank e.words)
  | 0, 0x03 => readClaim (mBank e.words)
  | 1, 0x01 => gpClaims e.words
  | 2, 0x01 => banksRead e.words (k.flightWords e.words)
  | _, _ => 0

/-- Two claim masks name one bank. -/
def claimsMeet (a b : Nat) : Bool := (bits a 0 4 ||| bits a 4 4) &&& (bits b 0 4 ||| bits b 4 4) != 0

/-- Another queue's head, issued earlier, requests a conflicting claim on a bank now and could take it: of two commands that request it
in one cycle the one issued first takes it (R132). A head of MQ requests none while the engine is gated or wakes (log 136). -/
def State.claimYields (s : State) (c q stamp claims : Nat) : Bool :=
  let k := s.core c
  [0, 1, 2].any (fun p =>
    match (k.queue p).head? with
    | some x => p != q && decide (x.stamp < stamp) && s.jobRuns c x.job && !s.stalledBy c x.job && !s.awaitsCompute p x.job &&
        (p != 0 || !(k.me.gated || k.me.waking)) && !claimConflict k.running (k.headClaims p x) &&
        claimsMeet (k.headClaims p x) claims
    | none => false)

/-- Run the head of queue `q` when its opcode is `op` and nothing stalls it; an unlisted opcode at the head faults. DESIGN CHOICE (log
134): a signal on a lock that is not the job's (R299) is found before the faults of the descriptor's planes, and a plane's before a
missing credit (R81). -/
def State.runHead (s : State) (c q op : Nat) (f : QEntry → CoreSt → State × EngRes) : State :=
  match (s.core c).queue q with
  | [] => s
  | e :: _ =>
    if e.op ≠ op ∧ opListedFor q e.op then s
    else if !s.jobRuns c e.job then s.queueJobFault c q
    else if s.stalledBy c e.job ∨ s.awaitsCompute q e.job then s
    else if e.op ≠ op then s.faultJob c e.job (illegalCause q) 0
    else
      let r := f e (s.core c)
      let all := if op = 0x0C ∧ q = 3 then none else dSignal c e.words
      let sig := all.filter (fun g => !(q == 3 && op == 3 && g.core == dw e.words 14))
      match r.2 with
      | .fault k cause =>
        if cause = illegalCause q ∨ (s.core c).ownsSignal c e.job all then (s.setCore c k).faultJob c e.job cause 0
        else s.faultJob c e.job Cause.lockOwner ((all.map (·.lock)).getD 0)
      | .run k effects dest claims nonpre cycles =>
        if !(s.core c).ownsSignal c e.job all then s.faultJob c e.job Cause.lockOwner ((all.map (·.lock)).getD 0)
        else if s.claimYields c q e.stamp claims then
          s.modCore c (fun k => if q = 0 then { k with me := { k.me with claimSince := some (k.me.claimSince.getD s.time.up) } } else k)
        else r.1.takeRes c q e sig (.run k effects dest claims nonpre cycles)
      | res =>
        if (s.core c).ownsSignal c e.job all then r.1.takeRes c q e sig res
        else s.faultJob c e.job Cause.lockOwner ((all.map (·.lock)).getD 0)

/-- Run an engine whose answer depends on its core alone. -/
def State.runEngine (s : State) (c q op : Nat) (f : CoreSt → QEntry → EngRes) : State :=
  s.runHead c q op (fun e k => (s, f k e))

/-! ## Commit (R324) -/

/-- A staging tally after a command adds its live rows (R154). -/
def tallyAdd (sp : Spad) (pound off : Nat) (rows : List Nat) (nonfinite : Nat) (clips : List Nat) : Spad :=
  let steps := leNat (readPound sp pound off 8) + rows.length
  let bad := satAdd (poundWord sp pound (off + 8)) nonfinite
  let seen := rows.foldl (fun (n : Nat) r => n ||| 2 ^ (r % 1024)) (leNat (readPound sp pound (off + 0x10) 128))
  let counts := (List.range clips.length).zip clips |>.flatMap (fun e =>
    leBytes 4 (satAdd (poundWord sp pound (off + 0x100 + 4 * e.1)) e.2).toNat)
  writePound (writePound (writePound (writePound sp pound off (leBytes 8 steps)) pound (off + 8) (leBytes 4 bad.toNat))
    pound (off + 0x10) (leBytes 128 seen)) pound (off + 0x100) counts

/-- Tags and occupancy bits set. -/
def Spad.setTags (sp : Spad) (ts : List (Nat × Tag)) : Spad :=
  { sp with tags := ts.foldl (fun t e => Table.put {} t e.1 e.2) sp.tags }
def Spad.setOcc (sp : Spad) (os : List (Nat × Bool)) : Spad :=
  { sp with occ := os.foldl (fun t e => Table.put false t e.1 e.2) sp.occ }

/-- DEPTH of a lock set at a commit; out of range it stays and the job is killed (R301). -/
def State.setDepth (s : State) (c job i n : Nat) : State :=
  let l := (s.core c).lock i
  if l.occ ≤ n then s.modCore c (fun k => k.setLock i { l with depth := n })
  else s.killJob job (some Cause.lockRange) i { core := some c } false

/-- One effect of a committing command of core `c`. -/
def State.applyEff (s : State) (c : Nat) (r : Running) : Eff → State
  | .tags ts => s.modCore c (fun k => { k with spad := k.spad.setTags ts })
  | .occ os => s.modCore c (fun k => { k with spad := k.spad.setOcc os })
  | .hbm bs => { s with hbm := s.hbm.writes bs }
  | .tiles ws => s.modCore c (fun k => { k with ve := { k.ve with tiles := k.ve.tiles.writes ws } })
  | .tally pound off rows bad clips => s.modCore c (fun k => { k with spad := tallyAdd k.spad pound off rows bad clips })
  | .flight n bs => s.modCore c (fun k => { k with ve := { k.ve with flights := Table.put none k.ve.flights n (some bs) } })
  | .veCounts a b d => s.modCore c (fun k => { k with ve := { k.ve with
      clip := satAdd k.ve.clip a, nonfinite := satAdd k.ve.nonfinite b, gatherOor := satAdd k.ve.gatherOor d } })
  | .gpCounts a b d => s.modCore c (fun k => { k with gp := { k.gp with
      nonfinite := satAdd k.gp.nonfinite a, sat := satAdd k.gp.sat b, rowsteps := k.gp.rowsteps + BitVec.ofNat 64 d } })
  | .untag ps => s.modCore c (fun k => { k with spad := k.spad.untag ps })
  | .meCounts a b d u => s.modCore c (fun k => { k with me := { k.me with
      nonfinite := satAdd k.me.nonfinite a, sat := satAdd k.me.sat b, flush := satAdd k.me.flush d,
      busy := k.me.busy + BitVec.ofNat 64 u } })
  | .busy unit u => s.modCore c (fun k =>
      if unit = 1 then { k with gp := { k.gp with busy := k.gp.busy + BitVec.ofNat 64 u } }
      else { k with ve := { k.ve with busy := k.ve.busy + BitVec.ofNat 64 u } })
  | .hbmWrites lens => s.each lens (fun s e => s.modStack e.1 (fun k => { k with wrBytes := k.wrBytes + BitVec.ofNat 64 e.2 }))
  | .hbmReads lens sluice => s.each lens (fun s e => s.modStack e.1 (fun k => { k with
      rdBytes := k.rdBytes + BitVec.ofNat 64 e.2, barges := if sluice then k.barges + 1 else k.barges,
      saved := k.saved + BitVec.ofNat 64 (4096 - e.2) }))
  | .meIdle => s.modCore c (fun k => { k with me := { k.me with idleAt := s.time.up } })
  | .occAt d os => s.modCore d (fun k => { k with spad := k.spad.setOcc os })
  | .summary ws => s.modCore c (fun k => { k with ve := { k.ve with fifo := k.ve.fifo ++ [ws] } })
  | .remote d gone ts os sig => s.modCore d (fun k => { k with commits := k.commits ++
      [{ src := c, job := r.job, cmd := r.entry.stamp,
         effects := [.untag gone, .tags ts, .occ os] ++ (sig.map Eff.signal).toList }] })
  | .hbmTags ts => { s with hbmTags := ts.foldl (fun t e => Table.put {} t e.1 e.2) s.hbmTags }
  | .link ms l => s.sendOn l ms
  | .signal g => if g.core = c then s.localSignals c r.job [g] else s.nocSignal c g
  | .depth i n => s.setDepth c r.job i n
  | .eligible o => s.countBlock c r.job (o.getD (s.job r.job).task.1)
  | .checkCrc o j k id crc ok => s.checkCrc c o j k id crc ok
  | .retain k chunk dest lock xfer link ms own => s.modCore c (fun v => { v with retained := v.retained ++
      [{ xfer := xfer, dest := dest, cohort := k, chunk := chunk, lock := lock, entry := r.entry, link := link, msgs := ms, own := own }] })

/-- Whether an effect is a lock signal, which is applied after every other effect, or a summary record. -/
def Eff.late : Eff → Bool
  | .signal _ => true | .depth .. => true | .checkCrc .. => true | _ => false
def Eff.isSummary : Eff → Bool
  | .summary _ => true | _ => false
/-- Whether an effect may be the last thing that a chunk's check tokens waited for (R577). -/
def Eff.tells : Eff → Bool
  | .retain .. => true | .eligible _ => true | .checkCrc .. => true | _ => false

/-- A command commits: bank claims go with its record, its writes stand, then its signals apply. A weight set that it
was loading is LOADED (R91). -/
def State.commitRun (s : State) (c : Nat) (r : Running) : State :=
  let s1 := s.modCore c (fun k => { k with
    running := k.running.erase r,
    me := if r.queue = 0 then k.me.settle else k.me,
    ve := if r.queue = 2 then (k.endSumWait s.time.up).ve else k.ve })
  let s2 := s1.each (r.effects.filter (fun e => !e.late)) (fun s e => s.applyEff c r e)
  let s3 := s2.each (r.effects.filter Eff.late) (fun s e => s.applyEff c r e)
  if r.effects.any Eff.tells then s3.tokensOf r.job else s3

/-- A switch owns the engines and the scratchpad port of a core (R334). -/
def State.switchOwns (s : State) (c : Nat) : Bool :=
  match (s.part (partOfCore c)).switch with
  | some w => w.parkedAt.isSome
  | none => false

/-- A DM command's barges have not all been granted or sent (R82, R339). -/
def State.bargesDue (s : State) (c q : Nat) (r : Running) : Bool :=
  q == 3 && ((s.part (partOfCore c)).reqs.any (fun x => x.core == c && x.cmd == r.entry.stamp) ||
    (s.core c).sends.any (fun x => x.cmd == r.entry.stamp) || (s.core c).linkSends.any (fun x => x.cmd == r.entry.stamp))

/-- The oldest started command of a queue commits when its barges have been granted (R339), no switch owns its engine (R334) and, for a
VE command, the summary FIFO has room (R200). -/
def State.commitQueue (s : State) (c q : Nat) : State :=
  match (s.core c).running.find? (fun r => r.queue == q) with
  | none => s
  | some r =>
    if s.bargesDue c q r ∨ s.switchOwns c then s
    else if r.effects.any Eff.isSummary ∧ 16 ≤ (s.core c).ve.fifo.length then
      s.modCore c (fun k => { k with ve := { k.ve with sumSince := some (k.ve.sumSince.getD s.time.up) } })
    else s.commitRun c r

/-! ## Lock commands (R297 to R303) -/

def wLock (ws : List Word) : Nat := bits (dw ws 1) 24 8
def wCount (ws : List Word) : Nat := bits (dw ws 1) 16 7
def wDeadline (ws : List Word) : Nat := bits (dw ws 1) 0 14
def sXchip (ws : List Word) : Bool := bitAt (dw ws 1) 15

/-- The form of a wait (R297, R298), apart from COUNT against the lock's DEPTH. -/
def waitOk (ws : List Word) : Bool :=
  bits (dw ws 0) 15 17 == 0 && bits (dw ws 1) 23 1 == 0 && bits (dw ws 1) 14 2 == 0 && zeroWords ws 2 14 &&
  wCount ws != 0 && decide (wDeadline ws ≤ 10000)

/-- The condition of a wait (R288). -/
def waitHolds (op : Nat) (l : Lock) (n : Nat) : Bool :=
  if op = 0xE0 then decide (l.occ + n ≤ l.depth) else decide (n ≤ l.occ)

/-- Queue-cycles that a wait has spent at the head of its queue. -/
def headCycles (up : Nat) (e : QEntry) : Nat := cyclesBetween (e.headAt.getD up) up

/-- A wait at the head: it faults, completes, or stays (R288 to R299). -/
def State.waitHead (s : State) (c q : Nat) (e : QEntry) : State :=
  let ws := e.words
  let l := (s.core c).lock (wLock ws)
  if !waitOk ws then s.faultJob c e.job Cause.lockIllegal 0
  else if !(l.valid && l.owner == e.job) then s.faultJob c e.job Cause.lockOwner (wLock ws)
  else if l.depth < wCount ws then s.faultJob c e.job Cause.lockIllegal 0
  else if waitHolds e.op l (wCount ws) then
    s.modCore c (fun k => { (k.pop q s.time.up) with lockWait := satAdd k.lockWait (headCycles s.time.up e) })
  else s

/-- A lock command at the head with opcode `op` runs `f` on it. -/
def State.lockHead (s : State) (c q : Nat) (sel : Nat → Bool) (f : QEntry → State) : State :=
  match (s.core c).queue q with
  | [] => s
  | e :: _ =>
    if !sel e.op then s
    else if !s.jobRuns c e.job then s.queueJobFault c q
    else if s.stalledBy c e.job then s
    else f e

/-- The form of a LOCK_SIGNAL (R297, R298, R410). -/
def signalOk (ws : List Word) : Bool :=
  let amount := bits (dw ws 1) 16 7
  let vc := bits (dw ws 1) 13 2
  word0Ok ws && bits (dw ws 0) 16 2 != 0 && bits (dw ws 1) 23 9 == 0 && bits (dw ws 1) 5 8 == 0 && zeroWords ws 2 12 &&
  amount != 0 && decide (amount ≤ 64) &&
  (if sXchip ws then (vc == 0 || vc == 2) && bits (dw ws 14) 0 21 == 0 && zeroWords ws 15 1
   else vc == 0 && zeroWords ws 14 2)

/-- LOCK_SIGNAL at the head: it waits for the earlier commands of its queue, commits, and its signal goes out (R300). -/
def State.lockSignalHead (s : State) (c q : Nat) (e : QEntry) : State :=
  let ws := e.words
  let g := (dSignal c ws).map (fun g => { g with amount := bits (dw ws 1) 16 7 })
  if !signalOk ws then s.faultJob c e.job Cause.lockIllegal 0
  else if !sXchip ws ∧ !(s.core c).ownsSignal c e.job g then s.faultJob c e.job Cause.lockOwner ((g.map (·.lock)).getD 0)
  else if (s.core c).running.any (fun r => r.queue == q) then s
  else
    match g with
    | none => s
    | some g =>
      let s1 := s.modCore c (fun k => k.pop q s.time.up)
      if sXchip ws then
        let dest := lDestChip ws
        s1.sendTo dest [.signal (bits (dw ws 1) 13 2) dest g]
      else if g.core = c then s1.localSignals c e.job [g]
      else s1.nocSignal c g

/-- LOCK_DEPTH at the head: it starts, and its commit sets DEPTH (R301). -/
def State.lockDepthHead (s : State) (c q : Nat) (e : QEntry) : State :=
  let ws := e.words
  let n := bits (dw ws 1) 0 7
  let l := (s.core c).lock (wLock ws)
  if !(bits (dw ws 0) 15 17 == 0 && bits (dw ws 1) 7 17 == 0 && zeroWords ws 2 14 && n != 0 && decide (n ≤ 64)) then
    s.faultJob c e.job Cause.lockIllegal 0
  else if !(l.valid && l.owner == e.job) then s.faultJob c e.job Cause.lockOwner (wLock ws)
  else
    let r : Running := { queue := q, job := e.job, entry := e, effects := [.depth (wLock ws) n], nonpre := false, claims := 0,
                         dest := [], cycles := 1 }
    s.modCore c (fun k => { (k.pop q s.time.up) with running := k.running ++ [r] })

/-- The deadline of a wait in microseconds (R293). -/
def CoreSt.deadlineOf (c : CoreSt) (ws : List Word) : Nat := if wDeadline ws = 0 then c.deadlineUs.toNat else wDeadline ws

/-- A wait whose deadline has passed kills its job (R294, R295). -/
def State.waitDeadline (s : State) (c _q : Nat) (e : QEntry) : State :=
  let k := s.core c
  if e.headAt.getD s.time.up + k.deadlineOf e.words * 1000 ≤ s.time.up then
    (s.modCore c (fun k => { k with lockWait := satAdd k.lockWait (headCycles s.time.up e) })).killJob e.job
      (some Cause.lockTimeout) (wLock e.words) { core := some c } false
  else s

end Sys2Proof.Machine
end

