-- ==== Sys2Proof/Machine/SteerOps.lean ====
section
/-! DEFINITION. Scale records and live scale steering (04_number_formats.md R148 to R168). -/

namespace Sys2Proof.Machine

/-- Channels of a tensor. -/
def TensorSpec.channels (t : TensorSpec) : Nat := max t.learned.length t.calibrated.length

/-- The table of model scales that JOB_LOAD selected for tensor `i` (R148). -/
def Job.modelScales (b : Job) (i : Nat) (t : TensorSpec) : List Word :=
  if bitAt (b.cal.getD (i / 32) 0).toNat (i % 32) then t.calibrated else t.learned

/-- A model scale that R149 allows: a positive normal value from 2^−119 to 2^119. -/
def scaleLegal (w : Word) : Bool := decide (0x04000000 ≤ w.toNat) && decide (w.toNat ≤ 0x7B000000)

/-- ⌈log₂ v⌉ of a positive finite value. -/
def ceilLog2 (v : Val) : Int :=
  match v with
  | .fin _ m _ => if m = 2 ^ Nat.log2 m then v.lead else v.lead + 1
  | _ => 0

/-- The block scale byte of a group of scales (R150). -/
def groupScale (sig : List Word) : Nat :=
  let top := (sig.map ofF32).foldl (fun a v => if a.lt v then v else a) (.fin false 0 0)
  (127 + ceilLog2 top).toNat % 256

/-- Cut a list into groups of 32. -/
def groups32 (ws : List Word) : List (List Word) :=
  (List.range ((ws.length + 31) / 32)).map (fun g => (ws.drop (32 * g)).take 32)

/-- The bytes of a scale record (R152). -/
def scaleRecBytes (t : TensorSpec) (epoch : Nat) (sig : List Word) : List Byte :=
  leBytes 4 (b2n t.bashaba * 2 ^ 28 + t.fmt * 2 ^ 24 + (sig.length - 1)) ++ leBytes 4 t.tensor ++ leBytes 4 (epoch % 256) ++
    List.replicate 52 0 ++ wordsToBytes sig ++
    (groups32 sig).map (fun g => BitVec.ofNat 8 (if t.bashaba then 0x7F else groupScale g))

/-- f(0) to f(3) of R164. -/
def stepFactor : Nat → Word
  | 0 => 0x3F800000 | 1 => 0x3F9837F0 | 2 => 0x3FB504F3 | _ => 0x3FD744FD

/-- σ_c of offset `j` (R164), rounded once. -/
def steppedScale (s0 : Word) (j : Int) : Word :=
  toF32 (((ofF32 s0).mul (ofF32 (stepFactor (j.emod 4).toNat))).scale (j.fdiv 4))

/-- Where a steered tensor's records lie: the chip's own, or those of the twin's streams (R166): steering record, epoch 0,
epoch 1, window tally. -/
structure SteerPlace where
  steerRec : Nat
  srec0 : Nat
  srec1 : Nat
  tally : Nat
  deriving DecidableEq, Repr

def TensorSpec.place (t : TensorSpec) (twin : Bool) : SteerPlace :=
  if twin then ⟨t.twinRec, t.twinSrec0, t.twinSrec1, t.twinTally⟩ else ⟨t.steerRec, t.srec0, t.srec1, t.windowTally⟩

/-- The key of saved offsets in the ledger: model digest and 32-bit tensor ID (R167). -/
def steerKey (digest : List Byte) (tensor : Nat) : Nat := leNat digest * 2 ^ 32 + tensor % 2 ^ 32

/-- The model digest of a job: the reference digests of its model's package. -/
def State.modelDigest (s : State) (model : Nat) : List Byte :=
  ((s.flash.models.find? (fun m => m.pkg.id == model)).map (·.pkg.digest)).getD []

/-- Offsets j_c of a steering record. -/
def readOffsets (sp : Spad) (pound rec n : Nat) : List Int :=
  (readPound sp pound (rec + 0x10 + 4 * n) n).map (fun b => signed 8 b.toNat)

/-- The byte of an offset. -/
def offsetByte (j : Int) : Byte := BitVec.ofInt 8 j

/-- Write a tensor's steering record and both scale records at JOB_START (R152, R159, R167). -/
def State.startTensor (s : State) (j i : Nat) (t : TensorSpec) : State :=
  let b := s.job j
  let sig0 := b.modelScales i t
  let p := Table.look {} b.steer i
  let saved := Table.look [] s.flash.ledger.steering (steerKey (s.modelDigest b.model) t.tensor)
  let lim : Int := p.maxSteps
  let offs := (List.range sig0.length).map (fun c => if p.enable then max (-lim) (min lim (saved.getD c 0)) else 0)
  let sig := (sig0.zip offs).map (fun e => steppedScale e.1 e.2)
  let rec0 := scaleRecBytes t 0 sig
  s.modCore (Job.coreAt j t.core) (fun c =>
    let s1 := writePound (writePound c.spad t.pound t.srec0 rec0) t.pound t.srec1 rec0
    let s2 := writePound s1 t.pound t.steerRec (List.replicate 16 0 ++ wordsToBytes sig0 ++ offs.map offsetByte)
    let s3 := writePound s2 t.pound t.windowTally (List.replicate (256 + 4 * sig0.length) 0)
    { c with spad := if t.tallies then s3 else s1 })

/-- The records of every activation tensor of a job: a weight tensor has none (R148, R152). -/
def State.startTensors (s : State) (j : Nat) : State :=
  let ts := (s.job j).image.tensors
  s.each (((List.range ts.length).zip ts).filter (fun e => !e.2.weight)) (fun s e => s.startTensor j e.1 e.2)

/-- Fold a cohort's staging tally into a window tally and clear it (R156). -/
def foldTally (sp : Spad) (pound staging window n : Nat) : Spad :=
  let w (o : Nat) := poundWord sp pound (window + o)
  let a (o : Nat) := poundWord sp pound (staging + o)
  let steps := leNat (readPound sp pound window 8) + leNat (readPound sp pound staging 8)
  let seen := leNat (readPound sp pound (window + 0x10) 128) ||| leNat (readPound sp pound (staging + 0x10) 128)
  let clips := (List.range n).flatMap (fun c => leBytes 4 (satAdd (w (0x100 + 4 * c)) (a (0x100 + 4 * c)).toNat).toNat)
  let s1 := writePound (writePound sp pound window (leBytes 8 steps)) pound (window + 8)
    (leBytes 4 (satAdd (w 8) (a 8).toNat).toNat)
  let s2 := writePound (writePound s1 pound (window + 0x10) (leBytes 128 seen)) pound (window + 0x100) clips
  writePound s2 pound staging (List.replicate (256 + 4 * n) 0)

/-- One channel of the step of R163. -/
def steerChannel (p : Steer) (n clip : Nat) (j : Int) : Int :=
  let above := n < clip * 2 ^ p.targetLog2
  let under := clip * 2 ^ (p.targetLog2 + 4) < n
  if above ∧ j < p.maxSteps then j + 1
  else if p.downEn ∧ under ∧ -(p.maxSteps : Int) < j then j - 1
  else j

/-- Number of set bits. -/
def popcount (n bits_ : Nat) : Nat := (List.range bits_).countP (fun i => bitAt n i)

/-- Write the inactive scale record with new offsets and flip ACTIVE_EPOCH (R164, R165). -/
def flipRecord (sp : Spad) (t : TensorSpec) (pl : SteerPlace) (sig0 : List Word) (offs : List Int) : Spad :=
  let act := bits (poundWord sp t.pound (pl.steerRec + 12)).toNat 0 1
  let cur := if act = 0 then pl.srec0 else pl.srec1
  let other := if act = 0 then pl.srec1 else pl.srec0
  let epoch := bits (poundWord sp t.pound (cur + 8)).toNat 0 8 + 1
  let s1 := writePound sp t.pound other (scaleRecBytes t epoch ((sig0.zip offs).map (fun e => steppedScale e.1 e.2)))
  writePound (writePound s1 t.pound (pl.steerRec + 12) (leBytes 4 (1 - act))) t.pound
    (pl.steerRec + 0x10 + 4 * sig0.length) (offs.map offsetByte)

/-- Ten minutes, the least time between two saves of one tensor (R167). -/
def saveApartNs : Nat := 600000000000

/-- A save may go to the ledger: offsets wait, and the last save lies 10 minutes back. -/
def SteerSave.due (v : SteerSave) (up : Nat) : Bool :=
  v.waiting.isSome && (match v.savedAt with | some u => decide (u + saveApartNs ≤ up) | none => true)

/-- The waiting save of one key goes to the ledger, if it may (R167). -/
def State.saveKey (s : State) (key : Nat) : State :=
  let v := Table.look {} s.saves key
  match v.waiting with
  | some offs =>
    if v.due s.time.up then
      { s with saves := Table.put {} s.saves key { savedAt := some s.time.up } }.ledgerChange (fun l =>
        { l with steering := Table.put [] l.steering key offs })
    else s
  | none => s

/-- Every save that may go to the ledger goes there. -/
def State.saveAll (s : State) : State :=
  s.each ((s.saves.filter (fun e => e.2.due s.time.up)).map (·.1)) State.saveKey

/-- The offsets of a tensor are to be saved; they supersede those that still wait (R167). -/
def State.noteSave (s : State) (j : Nat) (t : TensorSpec) (offs : List Int) : State :=
  let key := steerKey (s.modelDigest (s.job j).model) t.tensor
  { s with saves := Table.upd {} s.saves key (fun v => { v with waiting := some offs }) }.saveKey key

/-- The model scales of a tensor whose steering was disabled come back (R168). -/
def State.backToModel (s : State) (j i : Nat) (t : TensorSpec) (twin : Bool) : State :=
  let pl := t.place twin
  let cc := Job.coreAt j t.core
  let n := t.channels
  let sig0 := bytesToWords (readPound (s.core cc).spad t.pound (pl.steerRec + 0x10) (4 * n))
  { s.modCore cc (fun c => { c with spad := flipRecord c.spad t pl sig0 (List.replicate n 0) }) with
    steering := Table.upd {} s.steering (j * 128 + i) (fun r =>
      if twin then { r with twinScales := false } else { r with modelScales := false }) }

/-- A window closes (R161 to R165). -/
def State.closeWindow (s : State) (j i : Nat) (t : TensorSpec) (twin : Bool) : State :=
  let p := Table.look {} (s.job j).steer i
  let cc := Job.coreAt j t.core
  let sp := (s.core cc).spad
  let pl := t.place twin
  let n := t.channels
  let sig0 := bytesToWords (readPound sp t.pound (pl.steerRec + 0x10) (4 * n))
  let steps := leNat (readPound sp t.pound pl.tally 8)
  let seen := popcount (leNat (readPound sp t.pound (pl.tally + 0x10) 128)) 1024
  let clips := (bytesToWords (readPound sp t.pound (pl.tally + 0x100) (4 * n))).map (·.toNat)
  let counts := decide (p.minStreams ≤ seen) && decide (2 ^ p.minSamplesLog2 ≤ steps * n)
  let old := readOffsets sp t.pound pl.steerRec n
  let offs := if counts then (old.zip clips).map (fun e => steerChannel p steps e.2 e.1) else old
  let bump (sp : Spad) (o : Nat) := writePound sp t.pound (pl.steerRec + o)
    (leBytes 4 (poundWord sp t.pound (pl.steerRec + o) + 1).toNat)
  let s1 := if offs ≠ old then flipRecord sp t pl sig0 offs else sp
  let s2 := writePound (bump s1 (if counts then 4 else 8)) t.pound pl.steerRec (leBytes 4 0)
  let s3 := writePound s2 t.pound pl.tally (List.replicate (256 + 4 * n) 0)
  let sv := { s.modCore cc (fun c => { c with spad := s3 }) with
    steering := Table.upd {} s.steering (j * 128 + i) (fun r =>
      if counts && !twin then { r with rowsteps := steps, rowsSeen := seen, topClips := clips.foldl max 0 } else r) }
  if offs ≠ old then sv.noteSave j t offs else sv

/-- The tensor's part of a commit of cohort 0 (R160 to R165, R167, R168). -/
def State.steerCommit (s : State) (j i : Nat) (t : TensorSpec) (twin : Bool) : State :=
  let p := Table.look {} (s.job j).steer i
  let run := Table.look {} s.steering (j * 128 + i)
  let pl := t.place twin
  let cc := Job.coreAt j t.core
  if (if twin then run.twinScales else run.modelScales) then s.backToModel j i t twin
  else if !p.enable then s
  else
    let pos := (poundWord (s.core cc).spad t.pound pl.steerRec).toNat + 1
    if pos < p.windowChunks then
      s.modCore cc (fun c => { c with spad := writePound c.spad t.pound pl.steerRec (leBytes 4 pos) })
    else s.closeWindow j i t twin

/-- Steering at a commit of cohort `k`: every staging tally folds, whether the tensor is steered or not (R156); cohort 0 closes
windows. The twin's cohorts keep records of their own (R166). -/
def State.steerAtCommit (s : State) (j k : Nat) : State :=
  let b := s.job j
  let twin := decide (b.own ≤ k)
  let ts := ((List.range b.image.tensors.length).zip b.image.tensors).filter (fun e => e.2.tallies)
  let s1 := s.each ts (fun s e =>
    match e.2.staging[k]? with
    | some off => s.modCore (Job.coreAt j e.2.core) (fun c =>
        { c with spad := foldTally c.spad e.2.pound off (e.2.place twin).tally e.2.channels })
    | none => s)
  if k % b.own = 0 then s1.each ts (fun s e => s.steerCommit j e.1 e.2 twin) else s1

/-- What TELEMETRY_READ reports of a steered tensor: the last counted window and the current offsets (R168), in the four words of
its item (R677). -/
def State.steerReport (s : State) (j i : Nat) (t : TensorSpec) : List Word :=
  let run := Table.look {} s.steering (j * 128 + i)
  let offs := readOffsets (s.core (Job.coreAt j t.core)).spad t.pound t.steerRec t.channels
  (List.range 4).map (Config.steerItem run.rowsteps run.rowsSeen run.topClips offs)

end Sys2Proof.Machine
end

