-- ==== Sys2Proof/Machine/KvOps.lean ====
section
/-! DEFINITION. KV tensors at commits (07_attention_and_kv.md): attention records (R246, R247), the extent allocator
(R264 to R266), rebuilds from retained inputs (R267, R268), KV summaries (R269 to R271), the reduced cache (R272, R273). -/

namespace Sys2Proof.Machine

/-! ## Shapes -/

/-- Bits of a code. -/
def KvSpec.codeBits (v : KvSpec) : Nat := if v.fmt = 7 then 8 else 4
/-- Code pages of a span (R243). -/
def KvSpec.pages (v : KvSpec) : Nat := 256 * v.dh * v.codeBits / 8 / 4096
/-- Frames of an extent (R245). -/
def KvSpec.frames (v : KvSpec) : Nat := 2 * v.layers * v.heads * (v.pages + 1) + 1
/-- The parameter ranges of R241; INT8 is format 0x07 and INT4 format 0x08 (R133). -/
def KvSpec.legal (v : KvSpec) : Bool :=
  (v.fmt == 7 || v.fmt == 8) && (v.dh == 64 || v.dh == 128 || v.dh == 256) && 1 ≤ v.layers && v.layers ≤ 64 &&
  1 ≤ v.heads && v.heads ≤ 32 && 1 ≤ v.maxSpans && v.maxSpans ≤ 64 && 1 ≤ v.appendMax && v.appendMax ≤ 255 &&
  1 ≤ v.rb && v.rb ≤ 4 && v.summaryLayer < v.layers
/-- The least pool of a tensor: the zero extent and what R264 asks for. -/
def KvSpec.minPool (v : KvSpec) (rowsSolo : Nat) : Nat :=
  if v.derived then rowsSolo * (v.maxSpans - v.rb) + 1 else rowsSolo * v.maxSpans + 1

/-- The key of a job's pool (item 0x7000 + 16j + k of R677). -/
def poolKey (j t : Nat) : Nat := j * 16 + t

/-! ## Attention records -/

/-- The core and offset of a row's attention record. -/
def kvRec (v : KvSpec) (row : Nat) : Nat := v.recOffset + 320 * row

/-- A word of a row's attention record. -/
def State.kvWord (s : State) (j : Nat) (v : KvSpec) (row o : Nat) : Nat :=
  (poundWord (s.core (Job.coreAt j v.core)).spad v.pound (kvRec v row + o)).toNat

/-- Write a word of a row's attention record. -/
def State.setKvWord (s : State) (j : Nat) (v : KvSpec) (row o n : Nat) : State :=
  s.modCore (Job.coreAt j v.core) (fun c => { c with spad := writePound c.spad v.pound (kvRec v row + o) (leBytes 4 n) })

/-- A page-table entry: state, generation, extent. -/
def pteState (w : Nat) : Nat := bits w 30 2
def pteGen (w : Nat) : Nat := bits w 22 8
def pteExtent (w : Nat) : Nat := bits w 0 20
def pte (st gen ext : Nat) : Nat := st * 2 ^ 30 + gen % 256 * 2 ^ 22 + ext

/-- Page-table entry of span `i`. -/
def State.pteOf (s : State) (j : Nat) (v : KvSpec) (row i : Nat) : Nat := s.kvWord j v row (0x40 + 4 * i)

/-- The first device barge of a tensor's pool. -/
def State.poolFirst (s : State) (j : Nat) (v : KvSpec) : Nat := (s.part (partOfJob j)).firstBarge + v.poolBarge

/-- The FORMAT and the SLEN of frame `f` of an extent (R244 to R246). -/
def KvSpec.formatOf (v : KvSpec) (f : Nat) : Nat :=
  if f + 1 = v.frames then 0x10 else if f % (v.pages + 1) = v.pages then 0x01 else v.fmt
def KvSpec.slenOf (v : KvSpec) (f : Nat) : Nat := if v.formatOf f = 0x01 then v.dh / 8 else 64

/-- The tag of frame `f` with its bytes (R246). -/
def KvSpec.pageTag (v : KvSpec) (f gen : Nat) (bs : List Byte) : Tag :=
  { crc := crc32c (bs.take (64 * v.slenOf f)), tensor := BitVec.ofNat 32 v.tensor, block := BitVec.ofNat 32 f, v := true,
    slen := v.slenOf f, fmt := v.formatOf f, gen := gen }

/-- A tag names frame `f` of an extent of generation `gen` (R246). -/
def KvSpec.tagIs (v : KvSpec) (f gen : Nat) (t : Tag) : Bool :=
  t.v && t.tensor == BitVec.ofNat 32 v.tensor && t.block == BitVec.ofNat 32 f && t.gen == gen && t.fmt == v.formatOf f

/-- The tensor's layout with INT4 codes, which the reduced spans have (R272). -/
def KvSpec.int4 (v : KvSpec) : KvSpec := { v with fmt := 8 }

/-- Write the pages of an extent in layout `lay`, each with its tag (R245, R246). -/
def State.writeExtent (s : State) (j : Nat) (v lay : KvSpec) (ext gen : Nat) (page : Nat → List Byte) : State :=
  s.each (List.range lay.frames) (fun s f =>
    let a := s.poolFirst j v + ext * v.frames + f
    let bs := (page f).take 4096 ++ List.replicate (4096 - (page f).length) 0
    { s with hbm := s.hbm.writeN (a * 4096) bs, hbmTags := Table.put {} s.hbmTags a (lay.pageTag f gen bs) })

/-- The zero extent of a pool: tagged pages of zeros (07 "Page table and attention record"). -/
def State.zeroExtent (s : State) (j : Nat) (v : KvSpec) : State := s.writeExtent j v v 0 0 (fun _ => [])

/-- The attention records that the lockkeeper writes at JOB_START: everything 0, so every entry is EMPTY and points at the
zero extent. -/
def State.startKv (s : State) (j : Nat) : State :=
  let img := (s.job j).image
  s.each ((List.range img.kv.length).zip img.kv) (fun s e =>
    let s1 := (s.zeroExtent j e.2).modCore (Job.coreAt j e.2.core) (fun c =>
      { c with spad := writePound c.spad e.2.pound e.2.recOffset (List.replicate (320 * img.rowsSolo) 0) })
    s1.modPool (poolKey j e.1) (fun _ => { free := (List.range (e.2.extents - 1)).map (· + 1), gens := [] }))

/-! ## The allocator -/

/-- Rows of a job that hold a stream, with its cohort, in ascending row. -/
def State.rowsOf (s : State) (j : Nat) : List (Nat × Nat) :=
  let rs := (OTable.entries s.streams).filterMap (fun e =>
    if e.2.adm.job = j then some (e.2.adm.row, e.2.adm.cohort) else none)
  (List.range 1024).filterMap (fun r => rs.find? (fun e => e.1 == r))

/-- Spans that may be dropped (R266 test 1) of one row: RESIDENT, not the stream's newest. -/
def State.droppable (s : State) (j : Nat) (v : KvSpec) (row : Nat) : List Nat :=
  let res := (List.range v.maxSpans).filter (fun i => pteState (s.pteOf j v row i) == 1)
  if v.rb ≤ s.kvWord j v row 0x10 then [] else res.filter (fun i => res.any (fun k => decide (i < k)))

/-- LAST_STEP of a row. -/
def State.lastStep (s : State) (j : Nat) (v : KvSpec) (row : Nat) : Nat :=
  s.kvWord j v row 4 + 2 ^ 32 * s.kvWord j v row 8

/-- The victim span of R266, as (row, span). -/
def State.victim (s : State) (j k : Nat) (v : KvSpec) : Option (Nat × Nat) :=
  let busy (c : Nat) : Bool := c == k || ((s.job j).cohort c).phase == .computing
  let cands := (s.rowsOf j).filterMap (fun e =>
    if busy e.2 then none else (s.droppable j v e.1).head?.map (fun i => (s.lastStep j v e.1, e.1, i)))
  (cands.foldl (fun (a : Option (Nat × Nat × Nat)) c =>
    match a with
    | none => some c
    | some b => if c.1 < b.1 then some c else some b) none).map (fun b => b.2)

/-- Drop the victim: its entry becomes RECOMPUTE at the zero extent and its extent is free (R266). -/
def State.dropSpan (s : State) (j t : Nat) (v : KvSpec) (row i : Nat) : State :=
  let x := pteExtent (s.pteOf j v row i)
  let s1 := (s.setKvWord j v row (0x40 + 4 * i) (pte 2 0 0)).setKvWord j v row 0x10 (s.kvWord j v row 0x10 + 1)
  s1.modPool (poolKey j t) (fun p => { p with free := p.free ++ [x], drops := satAdd p.drops 1 })

/-- Take an extent of a pool at a commit of cohort `k`, with its next generation (R265, R266): from the free list, or after a drop of a
DERIVED span. -/
def State.takeExtent (s : State) (j k t : Nat) (v : KvSpec) : State × Option (Nat × Nat) :=
  let key := poolKey j t
  let s1 := if (s.pool key).free = [] ∧ v.derived then
      (match s.victim j k v with | some (r, n) => s.dropSpan j t v r n | none => s)
    else s
  match (s1.pool key).free with
  | [] => (s1, none)
  | x :: rest =>
    let g := (Table.look 0 (s1.pool key).gens x + 1) % 256
    (s1.modPool key (fun q => { q with free := rest, gens := Table.put 0 q.gens x g }), some (x, g))

/-- Back one span of a stream with a new extent (R265): a span that was RECOMPUTE is due for its rebuild in the first step of the
stream's next chunk (R267). -/
def State.backSpan (s : State) (j k t : Nat) (v : KvSpec) (row i : Nat) : State :=
  match s.takeExtent j k t v with
  | (s1, none) => s1
  | (s1, some (x, g)) =>
    let was := pteState (s1.pteOf j v row i)
    let s2 := s1.setKvWord j v row (0x40 + 4 * i) (pte 1 g x)
    if was = 2 then
      (s2.setKvWord j v row 0x10 (s2.kvWord j v row 0x10 - 1)).modPool (poolKey j t) (fun q =>
        { q with toRebuild := q.toRebuild ++ [(row, i)] })
    else s2

/-- MODE of a row's attention record. -/
def State.modeOf (s : State) (j : Nat) (v : KvSpec) (row : Nat) : Nat := bits (s.kvWord j v row 0x0C) 0 2

/-- Back what R265 asks for on one row of the committing cohort. A REDUCED row has no full spans until its rebuild begins (R273). -/
def State.backRow (s : State) (j k t : Nat) (v : KvSpec) (row : Nat) : State :=
  let need := s.kvWord j v row 0 + v.appendMax
  let spans := (List.range v.maxSpans).filter (fun i =>
    let st := pteState (s.pteOf j v row i)
    st == 2 || (st == 0 && decide (256 * i < need)))
  if s.modeOf j v row = 1 then s else s.each spans (fun s i => s.backSpan j k t v row i)

/-- The reduced spans of a row go back to the free list (R273). -/
def KvPool.dropReduced (p : KvPool) (row : Nat) : KvPool :=
  { p with free := p.free ++ (match Table.look none p.spans row with | some x => [x.top.1, x.ring.1] | none => []),
           spans := Table.put none p.spans row none }

/-- Free every extent of a row (a stream ends: its row is FREE). -/
def State.freeRow (s : State) (j row : Nat) : State :=
  let kv := (s.job j).image.kv
  s.each ((List.range kv.length).zip kv) (fun s e =>
    let xs := (List.range e.2.maxSpans).filterMap (fun i =>
      let w := s.pteOf j e.2 row i
      if pteState w = 1 then some (pteExtent w) else none)
    let n := if s.modeOf j e.2 row = 0 then 0 else 1
    let s1 := s.modPool (poolKey j e.1) (fun p =>
      { p.dropReduced row with
        free := (p.dropReduced row).free ++ xs, reduced := p.reduced - n, since := Table.put 0 p.since row 0,
        toRebuild := p.toRebuild.filter (fun r => r.1 != row) })
    s1.modCore (Job.coreAt j e.2.core) (fun c =>
      { c with spad := writePound c.spad e.2.pound (kvRec e.2 row) (List.replicate 320 0) }))

/-! ## Reading pages (R246) -/

/-- Where a position is held: the layout of its pages, the extent with its generation, its place in the span. -/
structure KvAt where
  lay : KvSpec
  ext : Nat
  gen : Nat
  i : Nat

/-- Where position `p` of a row is held: in its span, or while the row is REDUCED in the ring's span (R272). -/
def State.kvAt (s : State) (j t : Nat) (v : KvSpec) (row p : Nat) : Option KvAt :=
  if s.modeOf j v row = 1 then
    (Table.look none (s.pool (poolKey j t)).spans row).map (fun x => ⟨v.int4, x.ring.1, x.ring.2, p % 256⟩)
  else
    let w := s.pteOf j v row (p / 256)
    if pteState w = 1 then some ⟨v, pteExtent w, pteGen w, p % 256⟩ else none

/-- Bytes of frame `f` of an extent, read under the frame's tag (R246); nothing where another tag stands. -/
def State.kvPage (s : State) (j : Nat) (v : KvSpec) (a : KvAt) (f o n : Nat) : Option (List Byte) :=
  let b := s.poolFirst j v + a.ext * v.frames + f
  if a.lay.tagIs f a.gen (s.hbmTag b) then some (s.hbm.readN (b * 4096 + o) n) else none

/-- The same, with free values where no page of the position stands. -/
def State.kvBytes (s : State) (j : Nat) (v : KvSpec) (a : KvAt) (f o n : Nat) : List Byte :=
  (s.kvPage j v a f o n).getD ((List.range n).map (fun b => Config.freeOut s.free (4096 * f + o + b)))

/-- The score s_t of a position, where its score page stands (R263). -/
def State.pageScore (s : State) (j : Nat) (v : KvSpec) (a : KvAt) : Option Nat :=
  (s.kvPage j v a (a.lay.frames - 1) (4 * a.i) 4).map leNat

/-! ## KV summaries (R269 to R271) -/

/-- A BF16 code as FP32. -/
def bf16Word (n : Nat) : Word := BitVec.ofNat 32 (n * 65536)

/-- Requantising a block of decoded values to INT4 (R261): the BF16 scale code and the codes. -/
def requant4 (xs : List Word) : Nat × List Nat :=
  let top := f32max (rowMax (xs.map f32abs)) 0x03800000
  let sc := (encodeSat 1 (ofF32 (f32mul top 0x3E124925))).1
  let r := f32rcp (bf16Word sc)
  (sc, xs.map (fun x =>
    let y := ofF32 (f32mul x r)
    let z : Int := if (Val.fin false 7 0).lt y then 7 else if y.lt (.fin true 7 0) then -7 else y.round
    (z.emod 16).toNat))

/-- One (layer, head, kind) of a position: INT4 codes and scales as the summary carries them (R242, R261, R269). -/
def State.kvPart (s : State) (j : Nat) (v : KvSpec) (a : KvAt) (lhk : Nat) : List Byte :=
  let page := a.lay.pages + 1
  let per := v.dh * a.lay.codeBits / 8
  let at_ := a.i * per
  let codes := s.kvBytes j v a (lhk * page + at_ / 4096) (at_ % 4096) per
  let nb := v.dh / 64
  let scales := s.kvBytes j v a (lhk * page + a.lay.pages) (2 * (a.i * nb)) (2 * nb)
  if a.lay.fmt = 8 then codes ++ scales
  else
    let ws := bytesToWords (scales ++ [0, 0])
    let blocks := (List.range nb).map (fun b =>
      let sc := bf16Word (bits (ws.getD (b / 2) 0).toNat (16 * (b % 2)) 16)
      requant4 (((codes.drop (64 * b)).take 64).map (fun q => toF32 ((Val.ofInt (signed 8 q.toNat)).mul (ofF32 sc)))))
    packElems 8 (blocks.flatMap (·.2)) ++ blocks.flatMap (fun b => leBytes 2 b.1)

/-- What a slot holds of a position that a chunk has just appended (R269). -/
def State.captureSlot (s : State) (j t : Nat) (v : KvSpec) (row p : Nat) : KvSlot :=
  let a := (s.kvAt j t v row p).getD ⟨v.int4, 0, 0xFFFF, p % 256⟩
  { pos := p, score := (s.pageScore j v a).getD (leNat ((List.range 4).map (Config.freeOut s.free))),
    data := (List.range (v.layers * v.heads * 2)).flatMap (fun n => s.kvPart j v a n) }

/-- Bytes of one slot of a tensor. -/
def KvSpec.slotBytes (v : KvSpec) : Nat := 8 + v.layers * v.heads * 2 * (v.dh / 2 + v.dh / 32)

/-- Where a tensor's slots start in a stream's summary: tensors in order, 320 slots each. -/
def summaryStart (kv : List KvSpec) (t : Nat) : Nat := ((kv.take t).map (fun v => 320 * v.slotBytes)).sum

/-- The key of slot `n` of a tensor in a stream's summary: slots 0 to 255 are the ring, 256 to 319 the top set. -/
def slotKey (index t n : Nat) : Nat := (index * 16 + t) * 320 + n

/-- A slot of a stream's summary. -/
def State.kvSlot (s : State) (index t n : Nat) : KvSlot := Table.look {} s.kvSlots (slotKey index t n)

/-- A slot changes: it is due in the stream's next mirror, whatever earlier mirror carried it (R271). -/
def State.setSlot (s : State) (index t n : Nat) (x : KvSlot) : State :=
  { s with
    kvSlots := Table.put {} s.kvSlots (slotKey index t n) x
    kvSent := Table.upd [] s.kvSent index (fun l => l.filter (· != (t, n)) ++ [(t, n)])
    pair := { s.pair with sent := s.pair.sent.map (fun m => { m with slots := m.slots.filter (· != (index, t, n)) }) } }

/-- The score s_t of the position in a slot: as its span's score page has it now, else as the slot has it (R263, R270). -/
def State.slotScore (s : State) (index j t : Nat) (v : KvSpec) (row n : Nat) : Nat :=
  let x := s.kvSlot index t n
  if s.modeOf j v row = 0 then (((s.kvAt j t v row x.pos).bind (s.pageScore j v)).getD x.score) else x.score

/-- The top-set slot that a leaving position of score `sq` takes (R270): an empty one, else that of the member with the smallest score
below its own, the lowest position first. -/
def State.topSlot (s : State) (index j t : Nat) (v : KvSpec) (row sq : Nat) : Option Nat :=
  let tops := (List.range 64).map (· + 256)
  match tops.find? (fun n => (s.kvSlot index t n).data.isEmpty) with
  | some n => some n
  | none =>
    let score := s.slotScore index j t v row
    let best := tops.foldl (fun a n =>
      if score n < score a ∨ (score n = score a ∧ (s.kvSlot index t n).pos < (s.kvSlot index t a).pos) then n else a) 256
    if score best < sq then some best else none

/-- New positions `p0` to `p1 − 1` of a stream enter its ring; the ones that they push out compete for the top set (R270). -/
def State.summaryAppend (s : State) (index j t : Nat) (v : KvSpec) (row p0 p1 : Nat) : State :=
  (List.range (p1 - p0)).foldl (fun s i =>
    let p := p0 + i
    let n := p % 256
    let old := s.kvSlot index t n
    let sq := s.slotScore index j t v row n
    let s1 := if old.data.isEmpty then s else
      (match s.topSlot index j t v row sq with | some m => s.setSlot index t m { old with score := sq } | none => s)
    s1.setSlot index t n (s1.captureSlot j t v row p)) s

/-- The bytes of a slot: score, position, then every layer, head and kind (R269). -/
def KvSlot.bytes (x : KvSlot) (score : Nat) : List Byte := leBytes 4 score ++ leBytes 4 x.pos ++ x.data

/-- A slot from its bytes. -/
def KvSlot.ofBytes (bs : List Byte) : KvSlot := { score := leNat (bs.take 4), pos := leNat ((bs.drop 4).take 4), data := bs.drop 8 }

/-- The slots of a stream's summary that changed since the last acknowledged mirror, as (tensor, slot), for its mirror (R271). -/
def State.summaryDue (s : State) (index : Nat) : List (Nat × Nat) := Table.look [] s.kvSent index

/-- Where a slot lies in a stream's summary and its bytes. -/
def State.slotChange (s : State) (index : Nat) (st : Stream) (e : Nat × Nat) : Option (Nat × List Byte) :=
  let j := st.adm.job
  let kv := (s.job j).image.kv
  kv[e.1]?.map (fun v =>
    (summaryStart kv e.1 + e.2 * v.slotBytes, (s.kvSlot index e.1 e.2).bytes (s.slotScore index j e.1 v st.adm.row e.2)))

/-! ## Reduced spans (R272) -/

/-- The bytes of frame `f` of a reduced span: codes, scales and scores of the slots `ns`, in INT4 layout. -/
def spanPage (lay : KvSpec) (xs : List KvSlot) (f : Nat) : List Byte :=
  let half := lay.dh / 2
  let part := half + lay.dh / 32
  let cut (x : KvSlot) (o n : Nat) : List Byte := if x.data.isEmpty then List.replicate n 0 else (x.data.drop o).take n
  let lhk := f / (lay.pages + 1)
  let i := f % (lay.pages + 1)
  if f + 1 = lay.frames then xs.flatMap (fun x => leBytes 4 x.score)
  else if i = lay.pages then xs.flatMap (fun x => cut x (lhk * part + half) (lay.dh / 32))
  else
    let per := 4096 / half
    ((xs.drop (i * per)).take per).flatMap (fun x => cut x (lhk * part) half)

/-- The top set and the ring of a stream, as the slots of a span each. -/
def State.topSlots (s : State) (index t : Nat) : List KvSlot := (List.range 64).map (fun n => s.kvSlot index t (256 + n))
def State.ringSlots (s : State) (index t : Nat) : List KvSlot := (List.range 256).map (s.kvSlot index t)

/-- Write the span of a REDUCED stream's top set. -/
def State.writeTop (s : State) (index j t : Nat) (v : KvSpec) (row : Nat) : State :=
  match Table.look none (s.pool (poolKey j t)).spans row with
  | some x => s.writeExtent j v v.int4 x.top.1 x.top.2 (spanPage v.int4 (s.topSlots index t))
  | none => s

/-- The reduced spans of a row are made from its stream's summary: the top set, VALID 64, and the ring, VALID 256 (R272). -/
def State.makeSpans (s : State) (index j k t : Nat) (v : KvSpec) (row : Nat) : State :=
  match s.takeExtent j k t v with
  | (s1, none) => s1
  | (s1, some top) =>
    match s1.takeExtent j k t v with
    | (s2, none) => s2.modPool (poolKey j t) (fun p => { p with free := top.1 :: p.free })
    | (s2, some ring) =>
      let s3 := (s2.modPool (poolKey j t) (fun p => { p with spans := Table.put none p.spans row (some { top := top, ring := ring }) })).writeTop
        index j t v row
      s3.writeExtent j v v.int4 ring.1 ring.2 (spanPage v.int4 (s3.ringSlots index t))

/-- While a stream is not FULL its slots take the scores that the last step left in the reduced spans (R263). -/
def State.rescore (s : State) (index j t : Nat) (v : KvSpec) (row : Nat) : State :=
  match Table.look none (s.pool (poolKey j t)).spans row with
  | none => s
  | some x =>
    let held (n : Nat) : KvAt := if n < 256 then ⟨v.int4, x.ring.1, x.ring.2, n⟩ else ⟨v.int4, x.top.1, x.top.2, n - 256⟩
    s.each (List.range 320) (fun s n =>
      let y := s.kvSlot index t n
      match y.data.isEmpty, s.pageScore j v (held n) with
      | false, some sc => { s with kvSlots := Table.put {} s.kvSlots (slotKey index t n) { y with score := sc } }
      | _, _ => s)

/-! ## Retained inputs and rebuilds (R267, R268) -/

/-- The key of a tensor's retention ring. -/
def inputKey (index t : Nat) : Nat := index * 16 + t

/-- The intake of a chunk is retained as the input of positions `p0` to `p1 − 1`; the ring holds the last 256 × MAX_SPANS positions (R268). -/
def State.retainInput (s : State) (index t : Nat) (v : KvSpec) (p0 p1 : Nat) (bs : List Byte) : State :=
  if p1 ≤ p0 ∨ !v.derived then s
  else { s with kvInputs := Table.upd [] s.kvInputs (inputKey index t) (fun l =>
    (l.filter (fun e => decide (e.last ≤ p0) && decide (p1 ≤ e.last + 256 * v.maxSpans))) ++ [{ first := p0, last := p1, bytes := bs }]) }

/-- What a rebuild of positions `a` to `b − 1` runs over: the retained inputs of a DERIVED tensor (R267), the row's committed state,
with its token history, for a PINNED one (R273). -/
def State.rebuildInput (s : State) (index j t : Nat) (v : KvSpec) (row a b : Nat) : List Byte :=
  if v.derived then ((Table.look [] s.kvInputs (inputKey index t)).filter (fun e => decide (e.first < b) && decide (a < e.last))).flatMap (·.bytes)
  else s.rowState j row

/-- A span's pages are rebuilt: what the producing projection leaves of its input is a free function of it (R267, R273). -/
def State.rebuildSpan (s : State) (index j t : Nat) (v : KvSpec) (row i : Nat) : State :=
  let w := s.pteOf j v row i
  let input := s.rebuildInput index j t v row (256 * i) (256 * i + 256)
  if pteState w = 1 then
    s.writeExtent j v v (pteExtent w) (pteGen w) (fun f => (List.range (64 * v.slenOf f)).map (Config.produced input f))
  else s

/-- The first step of a chunk rebuilds the spans of its streams that were RECOMPUTE, before any pass reads them (R267). -/
def State.rebuildDue (s : State) (j : Nat) (streams : List (Nat × Nat)) : State :=
  let kv := (s.job j).image.kv
  s.each ((List.range kv.length).zip kv) (fun s e => s.each streams (fun s r =>
    let key := poolKey j e.1
    let is := ((s.pool key).toRebuild.filter (fun x => x.1 == r.2)).map (·.2)
    (s.each is (fun s i => s.rebuildSpan r.1 j e.1 e.2 r.2 i)).modPool key (fun p =>
      { p with toRebuild := p.toRebuild.filter (fun x => x.1 != r.2), rebuilds := satAdd p.rebuilds is.length })))

/-! ## At a commit -/

/-- Positions that a chunk appended to a stream: the spec bounds them by APPEND_MAX and leaves the number to the schedule,
so it is a free value. -/
def appended (v : KvSpec) (draw room : Nat) : Nat := min (min v.appendMax room) (Config.freeNat draw)

/-- MODE after a commit (R273): a rebuild begins and ends when its job does, which the spec leaves open but for its bound of 2 s;
`late` says that a later commit would pass it. -/
def nextMode (m draw : Nat) (late : Bool) : Nat :=
  if m = 0 then 0 else if late || Config.freeBool draw then (if m = 1 then 2 else 0) else m

/-- The rebuild of a row begins (R273): its full spans are backed, and rebuilt up to its POS_COUNT. -/
def State.beginRebuild (s : State) (index j k t : Nat) (v : KvSpec) (row : Nat) : State :=
  let n := s.kvWord j v row 0
  let s1 := s.backRow j k t v row
  s1.each ((List.range v.maxSpans).filter (fun i => decide (256 * i < n))) (fun s i => s.rebuildSpan index j t v row i)

/-- MODE of one row's attention record at a commit (R273). -/
def State.kvMode (s : State) (j k t : Nat) (v : KvSpec) (index row : Nat) : State :=
  let m := s.modeOf j v row
  if m = 0 then s
  else
    let d := s.draw
    let key := poolKey j t
    let period := (s.job j).image.shape.periodMs * 1000000
    let since := Table.look 0 (s.pool key).since row
    let n := nextMode m d.1 (decide (since + 2000000000 < s.time.up + (if m = 1 then 2 else 1) * period))
    let s1 := d.2.setKvWord j v row 0x0C n
    if n = 0 then s1.modPool key (fun p =>
      { p.dropReduced row with reduced := p.reduced - 1, since := Table.put 0 p.since row 0 })
    else if m = 1 ∧ n = 2 then s1.beginRebuild index j k t v row
    else s1

/-- One KV tensor at the commit of a stepped stream: its record, its retained input, its summary, and the reduced top set (R247, R268
to R273). -/
def State.kvStream (s : State) (j t : Nat) (v : KvSpec) (index row : Nat) : State :=
  let d := s.draw
  let p0 := s.kvWord j v row 0
  let p1 := p0 + appended v d.1 (256 * v.maxSpans - p0)
  let s1 := ((d.2.setKvWord j v row 0 p1).setKvWord j v row 4 (s.time.now % 2 ^ 32)).setKvWord j v row 8 (s.time.now / 2 ^ 32)
  let s2 := (s1.retainInput index t v p0 p1 (s1.readIntake j row (s.job j).image.shape.intakeBytes)).summaryAppend index j t v row p0 p1
  if s2.modeOf j v row = 0 then s2 else (s2.writeTop index j t v row).rescore index j t v row

/-- The words of a pool record (07 "The pool record"). -/
def KvPool.words (p : KvPool) : List Word :=
  [BitVec.ofNat 32 p.free.length, p.drops, p.rebuilds, BitVec.ofNat 32 (p.reduced.toNat % 65536)]

/-- The pool record of a DERIVED tensor in scratchpad (07 "The pool record"). -/
def State.writePool (s : State) (j t : Nat) (v : KvSpec) : State :=
  let bs := wordsToBytes (s.pool (poolKey j t)).words
  if v.derived then s.modCore (Job.coreAt j v.core) (fun c => { c with spad := writePound c.spad v.pound v.poolRec bs })
  else s

/-- KV at a commit of cohort `k` (R247, R265, R266, R273): `stepped` are the streams whose chunk commits, as
(index, row); `live` the rows of every LIVE stream of the cohort, `all` every stream with its row. -/
def State.kvCommit (s : State) (j k : Nat) (stepped : List (Nat × Nat)) (live : List Nat) (all : List (Nat × Nat)) : State :=
  let kv := (s.job j).image.kv
  s.each ((List.range kv.length).zip kv) (fun s e =>
    let s1 := s.each stepped (fun s r => s.kvStream j e.1 e.2 r.1 r.2)
    let s2 := s1.each all (fun s r => s.kvMode j k e.1 e.2 r.1 r.2)
    let s3 := s2.each live (fun s r => s.backRow j k e.1 e.2 r)
    s3.writePool j e.1 e.2)

/-- A stream enters REDUCED (R272): its passes run over the two spans made from its summary. -/
def State.enterReduced (s : State) (index : Nat) : State :=
  match s.stream index with
  | none => s
  | some st =>
    let j := st.adm.job
    let row := st.adm.row
    let kv := (s.job j).image.kv
    s.each ((List.range kv.length).zip kv) (fun s e =>
      if s.modeOf j e.2 row = 0 then
        ((s.setKvWord j e.2 row 0x0C 1).modPool (poolKey j e.1) (fun p =>
          { p with reduced := p.reduced + 1, since := Table.put 0 p.since row s.time.up })).makeSpans index j st.adm.cohort e.1 e.2 row
      else s)

/-- A stream's summary is that in the mirror region at `base`, as its mirrors left it (R269, R272). -/
def State.readSummary (s : State) (index j row base : Nat) : State :=
  let kv := (s.job j).image.kv
  s.each ((List.range kv.length).zip kv) (fun s e =>
    let n := s.kvWord j e.2 row 0
    let held := List.range (min 256 n) ++ (List.range (min 64 (n - 256))).map (· + 256)
    s.each held (fun s i =>
      let slot := KvSlot.ofBytes (s.hbm.readN (base + summaryStart kv e.1 + i * e.2.slotBytes) e.2.slotBytes)
      { s with kvSlots := Table.put {} s.kvSlots (slotKey index e.1 i) slot }))

end Sys2Proof.Machine
end

