-- ==== Sys2Proof/Machine/Lk.lean ====
section
/-! DEFINITION. The lockkeeper's command path (15_command_protocol.md): the opcode table's header rules (R537, R730),
the check order of R540, remembered packets (R535), limits (R544), and the frame in which every command row runs
(R536, R545). -/

namespace Sys2Proof.Machine

/-! ## The opcode table -/

/-- Which PARTITION and JOB a header must carry (R537, R730): the device, a partition, a job with its partition,
a stream's partition, or either. -/
inductive Scope where
  | device | part | job | stream | either
  deriving DecidableEq, Repr

/-- One opcode: payload words, scope, whether a VF may send it (R558). -/
structure OpInfo where
  words : Nat
  scope : Scope
  vf : Bool
  deriving DecidableEq, Repr

/-- The listed opcodes (R551 to R558). -/
def opInfo : Nat → Option OpInfo
  | 0x0101 => some ⟨0, .device, true⟩ | 0x0102 => some ⟨3, .device, false⟩ | 0x0103 => some ⟨1, .device, false⟩
  | 0x0104 => some ⟨2, .device, false⟩
  | 0x0201 => some ⟨4, .part, false⟩ | 0x0202 => some ⟨2, .part, false⟩ | 0x0203 => some ⟨6, .part, true⟩
  | 0x0204 => some ⟨0, .job, true⟩ | 0x0205 => some ⟨0, .job, true⟩ | 0x0206 => some ⟨1, .job, true⟩
  | 0x0207 => some ⟨1, .job, true⟩ | 0x0208 => some ⟨0, .part, true⟩
  | 0x0301 => some ⟨6, .job, true⟩ | 0x0302 => some ⟨1, .stream, true⟩ | 0x0303 => some ⟨1, .stream, true⟩
  | 0x0304 => some ⟨2, .stream, true⟩ | 0x0305 => some ⟨3, .stream, false⟩ | 0x0306 => some ⟨1, .stream, true⟩
  | 0x0401 => some ⟨5, .either, false⟩ | 0x0402 => some ⟨2, .either, false⟩ | 0x0403 => some ⟨3, .job, true⟩
  | 0x0501 => some ⟨6, .device, false⟩ | 0x0502 => some ⟨1, .device, false⟩ | 0x0503 => some ⟨0, .device, false⟩
  | 0x0504 => some ⟨1, .device, false⟩ | 0x0505 => some ⟨2, .device, false⟩
  | 0x0601 => some ⟨1, .device, false⟩ | 0x0602 => some ⟨0, .device, false⟩ | 0x0603 => some ⟨2, .device, false⟩
  | 0x0604 => some ⟨0, .device, true⟩ | 0x0605 => some ⟨0, .device, false⟩ | 0x0611 => some ⟨6, .device, false⟩
  | 0x0612 => some ⟨1, .device, false⟩
  | 0x0701 => some ⟨2, .device, false⟩ | 0x0702 => some ⟨1, .device, false⟩ | 0x0703 => some ⟨1, .device, false⟩
  | 0x0704 => some ⟨1, .device, false⟩ | 0x0705 => some ⟨5, .device, false⟩ | 0x0706 => some ⟨3, .device, false⟩
  | 0x0801 => some ⟨3, .device, false⟩ | 0x0802 => some ⟨1, .device, false⟩ | 0x0803 => some ⟨4, .device, false⟩
  | 0x0804 => some ⟨4, .device, false⟩ | 0x0805 => some ⟨5, .device, false⟩
  | 0x0901 => some ⟨4, .either, true⟩ | 0x0902 => some ⟨3, .either, false⟩ | 0x0903 => some ⟨4, .either, true⟩
  | _ => none

/-! ## Fields of a command -/

/-- Payload word Pi as a number. -/
def Cmd.p (c : Cmd) (i : Nat) : Nat := (c.payload.getD i 0).toNat
/-- A field of payload word Pi. -/
def Cmd.f (c : Cmd) (i lo len : Nat) : Nat := bits (c.p i) lo len
/-- Payload words Pi, Pi+1 as an address. -/
def Cmd.addr (c : Cmd) (i : Nat) : Nat := c.p i + 2 ^ 32 * c.p (i + 1)
/-- The ACTION, KIND or like field in bits [31:30] of P0. -/
def Cmd.action (c : Cmd) : Nat := c.f 0 30 2
/-- The index of a handle (14 "Stream handles"). -/
def handleIndex (h : Nat) : Nat := bits h 6 10

/-- The first payload word with a bit outside its mask, as a packet word index (R13, R538). -/
def Cmd.stray (c : Cmd) (masks : List Nat) : Option Nat :=
  ((List.range masks.length).find? (fun i => (c.p i) &&& (0xFFFFFFFF - masks.getD i 0) != 0)).map (· + 8)

/-- The payload bits that the tables name, word by word (R552 to R557); every other bit is reserved (R538). -/
def payloadMasks : Nat → List Nat
  | 0x0102 => [0xFFFFFFFF, 0xFFFFFFFF, 7] | 0x0103 => [0xC000011F] | 0x0104 => [0xC0000000, 0xFFFFFFFF]
  | 0x0201 => [0x403F00FF, 0x3FFF, 0x3FFFFFFF, 0x3FFFF] | 0x0202 => [0x033F01FF, 0x7F] | 0x0203 => [0xFFFFFFFF, 3]
  | 0x0206 => [0x7F] | 0x0207 => [1]
  | 0x0301 => [0x8FF0FFFF, 0x03FF003F] | 0x0304 => [0xFFFFFFFF, 0xFFFF] | 0x0305 => [0xFFFFFFFF, 0x0F1F003F, 0x001F003F]
  | 0x0401 => [0xC000FFFF, 0x01FFFFFF] | 0x0402 => [0xC000FFFF, 0xFFF] | 0x0403 => [0xE000FFFF, 0x1F071F00, 0x07FF1FFF]
  | 0x0501 => [0xF, 0xFFFFFFFF, 0xFFFFFFFF, 0xFFFFFF] | 0x0502 => [0x103FF] | 0x0504 => [0x3FF] | 0x0505 => [0x133, 0x303FF]
  | 0x0601 => [0x107FF] | 0x0603 => [1] | 0x0611 => [0xC00007FF, 0xFFFFFFFF, 0xF] | 0x0612 => [0x3F]
  | 0x0701 => [0xC000001F, 0xFFFF] | 0x0702 => [7] | 0x0703 => [0xC000001F] | 0x0704 => [0x1F] | 0x0705 => [0xFFFFFFFF, 0xFFFF]
  | 0x0802 => [0x101] | 0x0803 => [0xFFFF] | 0x0804 => [0xFFFF] | 0x0805 => [0xC0000000]
  | 0x0901 => [0xFFFF] | 0x0902 => [0xFFFFFFFF, 0xFFFFFFFF, 0xFFFF000F]
  | _ => []

/-- A field check: a packet word index unless the condition holds. -/
def req (ok : Bool) (word : Nat) : Option Nat := if ok then none else some word

/-- The first failing check, as `BAD_PARAM`. -/
def badParam (checks : List (Option Nat)) : Option (Nat × Nat) :=
  (checks.filterMap id).head?.map (fun w => (St.badParam, w))

/-- The least failing word, as `BAD_PARAM` (R541: the index of the first offending word). -/
def firstBad (checks : List (Option Nat)) : Option (Nat × Nat) :=
  match checks.filterMap id with
  | [] => none
  | w :: ws => some (St.badParam, ws.foldl min w)

/-- The object a command acts on (R545): a kind and a number. -/
def Cmd.object (c : Cmd) : Nat × Nat :=
  let g := c.opcode / 256
  if c.opcode = 0x0301 then (2, c.job)
  else if g = 3 then (1, handleIndex (c.p 0))
  else if c.opcode = 0x0201 ∨ c.opcode = 0x0202 ∨ c.opcode = 0x0203 ∨ c.opcode = 0x0208 then (3, c.partition)
  else if g = 2 ∨ c.opcode = 0x0403 then (2, c.job)
  else if g = 5 then (4, 0)
  else if c.opcode = 0x0611 ∨ c.opcode = 0x0612 then (6, 0)
  else if g = 6 then (5, 0)
  else if c.opcode = 0x0701 ∨ c.opcode = 0x0703 ∨ c.opcode = 0x0704 then (7, c.f 0 0 5)
  else if g = 8 ∨ c.opcode = 0x0705 ∨ c.opcode = 0x0706 ∨ c.opcode = 0x0401 then (8, 0)
  else (9, 0)

/-! ## Reading a packet -/

/-- Origin numbers: functions 0 to 12, the towpath endpoints 13 and 14. -/
def Origin.code : Origin → Nat
  | .ring f => f
  | .tow e => 13 + e

/-- The remembered packets of an origin. -/
def State.seen (s : State) : Origin → List Seen
  | .ring f => (s.fn f).seen
  | .tow e => (s.mgmt.ep e).seen

/-- Change the remembered packets of an origin. -/
def State.setSeen (s : State) (o : Origin) (l : List Seen) : State :=
  match o with
  | .ring f => s.modFn f (fun b => { b with seen := l })
  | .tow e => { s with mgmt := s.mgmt.modEp e (fun p => { p with seen := l }) }

/-- Commands in progress of an origin (R544): accepted, waiting, or with a reply that waits for the ring. -/
def State.inProgress (s : State) (o : Origin) : Nat :=
  (s.accepted.countP (fun c => c.origin == o)) + (s.waits.countP (fun w => w.cmd.origin == o)) +
  (match o with | .ring f => (s.fn f).waiting.countP (fun i => !i.isEvent) | .tow _ => 0)

/-- Commands in progress of the device. -/
def State.allInProgress (s : State) : Nat :=
  s.accepted.length + s.waits.length +
  ((List.range 13).map (fun f => (s.fn f).waiting.countP (fun i => !i.isEvent))).sum

/-- A stored reply again, with KIND 0x03 (R535). -/
def repeated (ws : List Word) : List Word :=
  match ws with
  | w :: t => BitVec.ofNat 32 (w.toNat / 256 * 256 + 3) :: t
  | [] => []

/-- Write a reply's words to an origin without remembering it. -/
def State.sendReply (s : State) (o : Origin) (ws : List Word) : State :=
  match o with
  | .ring f => s.modFn f (fun b => b.post { isEvent := false, words := withCrc ws })
  | .tow e => s.emit (.towReply e (withCrc ws))

/-- Commands that the towpath may carry, with the restrictions of R674. -/
def towAllowed (c : Cmd) : Bool :=
  match c.opcode with
  | 0x0101 | 0x0604 | 0x0612 | 0x0208 | 0x0901 | 0x0902 | 0x0903 => true
  | 0x0705 => c.addr 2 == 0
  | 0x0803 => c.addr 1 == 0
  | 0x0801 | 0x0706 => c.addr 0 == 0
  | 0x0802 => c.f 0 8 1 == 0
  | 0x0805 | 0x0703 => c.action == 0
  | _ => false

/-- Commands that maintenance-only mode runs (R549). -/
def maintAllowed (op : Nat) : Bool :=
  [0x0101, 0x0103, 0x0104, 0x0801, 0x0802, 0x0803, 0x0804, 0x0805].contains op

/-- The stream that a stream command names, when its handle is open (R515). -/
def State.openHandle (s : State) (h : Nat) : Option Stream :=
  match s.stream (handleIndex h) with
  | some st => if st.adm.handle.toNat = h then some st else none
  | none => none

/-- The header of a packet and the reserved bits of its payload (R540 step 3): the first word with an offending field. -/
def State.headerBad (s : State) (h : List Word) (info : OpInfo) (c : Cmd) (bufLen : Nat) : Option Nat :=
  let w (i : Nat) := (h.getD i 0).toNat
  let part := c.partition
  let inRange := decide (part < 12)
  let partOk := match info.scope with
    | .device => part == 0xFF
    | .part => inRange
    | .job => inRange && part == c.job / 8
    | .stream => inRange && (match s.openHandle (c.p 0) with | some st => part == partOfJob st.adm.job | none => true)
    | .either => if c.opcode = 0x0401 then (if c.action = 0 then inRange else if c.action = 3 then inRange || part == 0xFF
        else part == 0xFF) else inRange || part == 0xFF
  if !partOk || bits (w 0) 1 7 != 0 then some 0
  else if w 1 = 0 then some 1
  else if w 2 ≠ 4 * info.words ∨ bufLen < w 2 then some 2
  else if bits (w 3) 7 25 ≠ 0 ∨ (info.scope ≠ .job ∧ w 3 ≠ 0) then some 3
  else if w 6 ≠ 0 then some 6
  else c.stray (payloadMasks c.opcode)

/-- Steps 1 to 5 of R540 on a packet, with R534 and R535: accepted, answered or ignored. -/
def State.acceptPacket (s : State) (o : Origin) (header payload : List Word) (bufLen : Nat) : State :=
  let w (i : Nat) := header.getD i 0
  let len := (w 2).toNat
  let got := (wordsToBytes payload).take (min len bufLen)
  let got := got ++ List.replicate (min (min len bufLen) 4096 - got.length) (0 : Byte)
  let crc := crc32c (wordsToBytes (header.take 7) ++ got)
  let op := bits (w 0).toNat 16 16
  let c : Cmd := { origin := o, opcode := op, partition := bits (w 0).toNat 8 8, checkOnly := bitAt (w 0).toNat 0,
                   seq := w 1, job := bits (w 3).toNat 0 7, tagLo := w 4, tagHi := w 5, payload := bytesToWords got,
                   crc := crc, readAt := s.time.up }
  let whole : Cmd := { c with job := (w 3).toNat }
  if crc ≠ w 7 then s.sendReply o (replyWords 1 whole St.badCrc 0 [])
  else
    match (s.seen o).find? (fun e => e.seq == w 1) with
    | some e =>
      if e.crc ≠ crc then s.sendReply o (replyWords 1 whole St.badParam 1 [])
      else match e.reply with
        | none => s
        | some ws => s.sendReply o (repeated ws)
    | none =>
      let s1 := if w 1 = 0 then s else s.setSeen o (lastN 256 (s.seen o ++ [{ seq := w 1, crc := crc, reply := none }]))
      match opInfo op with
      | none => s1.reply whole St.badOpcode 0 []
      | some info =>
        match s.headerBad header info c bufLen with
        | some i => s1.reply whole St.badParam i []
        | none =>
          let denied := match o with
            | .ring 0 => false
            | .ring f => !info.vf || c.partition + 1 != f
            | .tow _ => !towAllowed c
          if denied then s1.reply c St.denied 1 []
          else if op = 0x0805 ∧ c.action = 1 ∧ bitAt s.flash.sealFuses 2 then s1.reply c St.denied 2 []
          else if s.rst.stop = 1 ∧ !maintAllowed op then s1.reply c St.notReady 1 []
          else { s1 with accepted := s1.accepted ++ [c] }

/-- Read unread submission entries of a function while the limits of R544 allow it. -/
def State.readRing (s : State) (fn : Nat) : Nat → State
  | 0 => s
  | n + 1 =>
    let f := s.fn fn
    match f.unread with
    | [] => s
    | e :: rest =>
      if !s.ringsOpen || !f.sqEn || decide (32 ≤ s.inProgress (.ring fn)) || decide (256 ≤ s.allInProgress) then s
      else
        let s1 := s.setFn fn { f with unread := rest, sqHead := (f.sqHead + 1) % 2 ^ f.sqLog2.toNat }
        (s1.acceptPacket (.ring fn) (e.words.take 8) e.payload (e.words.getD 10 0).toNat).readRing fn n

/-! ## Running a command row -/

/-- What steps 6 to 9 of R540 and the command itself answer: a refusal, or the state after the effect (the effect sends the
reply, now or later). -/
inductive Verdict where
  | no (status detail : Nat)
  | yes (s : State)

/-- Refuse when a check fails. -/
def Verdict.need (r : Option (Nat × Nat)) (v : Verdict) : Verdict :=
  match r with
  | some (st, d) => .no st d
  | none => v

/-- Refuse unless a condition holds. -/
def Verdict.unless (ok : Bool) (status detail : Nat) (v : Verdict) : Verdict := if ok then v else .no status detail

/-- Take a towpath packet in, if its opcode is the row's (R673, R675). A chip that is not READY answers none; a FENCED chip
answers DEV_QUERY and PAIR_STATUS only (R441). -/
def State.takeTow (s : State) (ep : Nat) (pkt : Packet) (op : Nat) : State :=
  if bits (pkt.header.getD 0 0).toNat 16 16 ≠ op then s
  else if !(s.rst.ready || s.rst.stop == 1) || s.rst.quiesce.isSome || (s.mgmt.ep ep).eid.isNone then s
  else if s.pair.state = .fenced ∧ op ≠ 0x0101 ∧ op ≠ 0x0604 then s
  else if 8 ≤ s.inProgress (.tow ep) then s
  else s.acceptPacket (.tow ep) pkt.header pkt.payload (4 * pkt.payload.length)

/-- The command that a row runs now: the oldest accepted packet of its opcode and action from that origin, unless an earlier
accepted packet names the same object (R545). -/
def State.due (s : State) (o : Origin) (op : Nat) (sel : Cmd → Bool) : Option Cmd :=
  match s.accepted.find? (fun c => c.origin == o && c.opcode == op && sel c) with
  | none => none
  | some c =>
    if (s.accepted.takeWhile (fun d => d != c)).any (fun d => d.object == c.object) then none else some c

/-- Where a row's command comes from. -/
def Via.origin : Via → Origin
  | .ring f => .ring f
  | .tow e _ => .tow e

/-- Whether a command comes through a ring. -/
def Via.isRing : Via → Bool
  | .ring _ => true
  | .tow _ _ => false

/-- The state once a packet that a towpath row carries has been taken in. -/
def State.arrive (s : State) (via : Via) (op : Nat) : State :=
  match via with
  | .ring _ => s
  | .tow e pkt => s.takeTow e pkt op

/-- The command that a row runs now, with the state in which it runs: its packet is no longer among the accepted ones. -/
def State.taken (s : State) (via : Via) (op : Nat) (sel : Cmd → Bool) : Option (State × Cmd) :=
  let s0 := s.arrive via op
  if via.isRing && !s0.ringsOpen then none
  else (s0.due via.origin op sel).map (fun c => ({ s0 with accepted := s0.accepted.erase c }, c))

/-- Run a command row: find its command, check it, and answer or act. CHECK_ONLY has no effect (R536). -/
def State.command (s : State) (via : Via) (op : Nat) (sel : Cmd → Bool) (f : State → Cmd → Verdict) : State :=
  match s.taken via op sel with
  | none => s.arrive via op
  | some (s1, c) =>
    match f s1 c with
    | .no st d => s1.reply c st d []
    | .yes s2 => if c.checkOnly then s1.reply c St.ok 0 [] else s2

/-- Answer `OK` with result words. -/
def State.done (s : State) (c : Cmd) (res : List Word) : State := s.reply c St.ok 0 res

/-- Put a command in progress until something happens. -/
def State.later (s : State) (c : Cmd) (k : Waiting) : State := s.await c k

/-- HBM begins to leave self-refresh, which takes 10 µs (R680). -/
def State.wakeHbm (s : State) : State :=
  { s with mgmt := { s.mgmt with exitAt := some (s.mgmt.exitAt.getD (s.time.up + 10000)) } }

/-- Commands that wait for `what` (0 the self-refresh exit, 1 a lock's quarantine) are due again, ahead of later ones. -/
def State.release (s : State) (what : Nat) : State :=
  let sel (w : Wait) : Bool := w.kind == .exit what
  { s with waits := s.waits.filter (fun w => !sel w), accepted := (s.waits.filter sel).map (·.cmd) ++ s.accepted }

end Sys2Proof.Machine
end

