-- ==== Sys2Proof/Machine/PartOps.lean ====
section
/-! DEFINITION. Partitions and jobs (09_queues_jobs_partitions.md): weirs (R344 to R347), PART_CONFIGURE's choice of an HBM
area (R353), what JOB_LOAD checks and JOB_START writes, the switch (R330 to R338), the core reset (R664). -/

namespace Sys2Proof.Machine

/-! ## Weirs (R344, R554) -/

/-- A new setting: the level carries over, clipped to the new BURST (R346). -/
def Weir.change (w : Weir) (key rate burst up : Nat) : Weir :=
  let l := (w.refill key up).level
  { rate := rate, burst := burst, level := min l (burst * 4096 * 256), at_ := up }

/-- Keys that a PART_SET_WEIR names: one weir, one link, or L0 to L31. -/
def weirKeys (weir link : Nat) : List Nat :=
  if weir ≠ 3 then [weir] else if link = 0x3F then (List.range 32).map (3 + ·) else [3 + link]

/-- RATE in force for a key. -/
def Part.rate (p : Part) (key : Nat) : Nat := (Table.look {} p.weirs key).rate

/-- Put a setting in force. -/
def Part.setWeir (p : Part) (weir link rate burst up : Nat) : Part :=
  { p with
    weirs := (weirKeys weir link).foldl (fun t k => Table.upd {} t k (fun w => w.change k rate burst up)) p.weirs,
    weirsSet := p.weirsSet ||| BitVec.ofNat 4 (2 ^ weir) }

/-- A partition as the accepted settings that wait for a commit will leave it (R545). -/
def State.plannedPart (s : State) (p : Nat) : Part :=
  s.waits.foldl (fun q w =>
    match w.kind with
    | .commit _ _ _ (.weir n weir link rate burst) => if n = p then q.setWeir weir link rate burst s.time.up else q
    | _ => q) (s.part p)

/-- LINK_TRANSIT.RATE of a link (R409). -/
def State.transitOf (s : State) (l : Nat) : Nat := (s.link l).transit

/-- The sum rules of R344, R409 and R554 with partition `p` at `q`, for the keys that a setting names. -/
def State.weirSums (s : State) (p : Nat) (q : Part) (weir link : Nat) : Bool :=
  let part (n : Nat) : Part := if n = p then q else s.plannedPart n
  let sum (bit key : Nat) : Nat := ((List.range 12).map (fun n =>
    if bitAt (part n).weirsSet.toNat bit then (part n).rate key else 0)).sum
  if weir ≤ 1 then decide (sum 0 0 + sum 1 1 ≤ 240)
  else if weir = 2 then true
  else (weirKeys 3 link).all (fun k => decide (sum 3 k + s.transitOf (k - 3) ≤ 256))

/-- The least RATE figures of an image hold on a partition (R347). -/
def Part.meets (q : Part) (img : Image) : Bool :=
  ((List.range 3).all (fun k => decide (img.weirMin.getD k 0 ≤ q.rate k))) &&
  img.elcorMin.all (fun e => decide (e.2 ≤ q.rate (3 + e.1)))

/-- A partition setting for the ledger (TYPE 0x0005): the newest words for each weir and link. -/
def PartSetting.addWeir (t : PartSetting) (ws : List Word) : PartSetting :=
  let same (v : List Word) : Bool :=
    let a := bits (v.getD 0 0).toNat 16 10
    let b := bits (ws.getD 0 0).toNat 16 10
    a == b || (b == 0x33F && a / 256 == 3)
  { t with weirs := t.weirs.filter (fun v => !same v) ++ [ws] }

/-- Put a weir setting in force and note it for the ledger. -/
def State.applyWeir (s : State) (p weir link rate burst : Nat) : State :=
  let ws : List Word := [pack [(weir, 24), (link, 16), (rate, 0)], pack [(burst, 0)]]
  (s.modPart p (fun q => (q.settleStall s.time.up).setWeir weir link rate burst s.time.up)).ledgerChange (fun l =>
    { l with parts := Table.upd {} l.parts p (fun t => t.addWeir ws) })

/-! ## Configuring a partition -/

/-- The first place for `n` units among `cap` that no used range (start, length) touches. -/
def firstFit (cap n : Nat) (used : List (Nat × Nat)) : Option Nat :=
  let fits (a : Nat) : Bool := decide (a + n ≤ cap) && used.all (fun r => r.2 == 0 || decide (a + n ≤ r.1) || decide (r.1 + r.2 ≤ a))
  let cands := (0 :: used.map (fun r => r.1 + r.2)).filter fits
  match cands with
  | [] => none
  | a :: as => some (as.foldl min a)

/-- The lowest base of a free range of `gib` GiB (R353); the partition's own area counts as free. -/
def State.hbmBase (s : State) (p gib : Nat) : Option Nat :=
  firstFit 80 gib ((List.range 12).filterMap (fun n =>
    if n ≠ p ∧ (s.part n).configured then some ((s.part n).baseGib, (s.part n).hbmGib) else none))

/-- Configure a partition from the four words of a PART_CONFIGURE: wheel and deadline on both cores, HBM area, PREEMPT_EN and
AGE_MAX (R348, R353). -/
def State.configure (s : State) (p : Nat) (ws : List Word) (base : Nat) : State :=
  let w (i : Nat) : Nat := (ws.getD i 0).toNat
  let gib := bits (w 0) 0 8
  let s1 := s.modPart p (fun q => { q with
    configured := true, preemptEn := bitAt (w 0) 30, ageMax := bits (w 0) 16 6, hbmGib := gib,
    baseGib := if gib = 0 then 0 else base })
  let s2 := s1.each (coresOf p) (fun s k => s.modCore k (fun v => { v with
    deadlineUs := BitVec.ofNat 14 (w 1), spad := { v.spad with wheelLo := ws.getD 2 0, wheelHi := ws.getD 3 0 } }))
  { s2 with loaded := s2.loaded.filter (fun l => l.part != p) }.ledgerChange (fun l =>
    { l with parts := Table.upd {} l.parts p (fun t => { t with configure := ws }) })

/-- The settings that the ledger stores are put in force again, each partition as a PART_CONFIGURE and its PART_SET_WEIRs
(R631). -/
def State.reapply (s : State) : State :=
  s.each s.flash.ledger.parts (fun s e =>
    if e.2.configure = [] then s
    else
      match s.hbmBase e.1 (bits (e.2.configure.headD 0).toNat 0 8) with
      | none => s
      | some b => (s.configure e.1 e.2.configure b).each e.2.weirs (fun s ws =>
          let w := (ws.getD 0 0).toNat
          s.applyWeir e.1 (bits w 24 2) (bits w 16 6) (bits w 0 9) (bits (ws.getD 1 0).toNat 0 7)))

/-! ## Core reset (R664) -/

/-- A core reset: what it keeps is the scratchpad with its tags, occupancy, repair and wheel, the wait deadline, the quarantine of
killed jobs' locks (R308), and what is in flight towards the core. -/
def resetCore (k : CoreSt) (c epoch : Nat) : CoreSt :=
  { spad := { k.spad with pounds := [], credits := [], ceCount := 0 },
    cc := { mem := { epoch := epochOf epoch c 1, cells := [] } },
    lockSel := k.lockSel, deadlineUs := k.deadlineUs, locks := k.locks.filter (fun e => e.2.quar), issued := k.issued,
    me := { acc := { epoch := epochOf epoch c 2, cells := [] }, rescale := { epoch := epochOf epoch c 3, cells := [] } },
    ve := { tiles := { epoch := epochOf epoch c 4, cells := [] }, cache := { epoch := epochOf epoch c 5, cells := [] } },
    arrivals := k.arrivals, commits := k.commits, signals := k.signals, returns := k.returns }

/-- The core reset of one core, counted in RESET_CORE. -/
def State.coreReset (s : State) (c : Nat) : State :=
  let e := s.newEpoch
  let s1 := e.2.modCore c (fun k => resetCore k c e.1)
  let s2 := s1.modHealth c (fun h => { h with scanPasses := 0 })
  { s2 with rst := { s2.rst with core := s2.rst.core + 1 } }

/-! ## Placing a job -/

/-- What an image uses on a core (0 or 1 of its partition). -/
def Image.coreSpec (i : Image) (c : Nat) : CoreSpec := i.cores.getD (c % 2) default

/-- Flight-table and operand-cache places for a job on a core (R170). -/
def State.vePlace (s : State) (c : Nat) (img : Image) : Option (Nat × Nat × Nat × Nat) :=
  let sp := img.coreSpec c
  let rs := (s.core c).ve.ranges.map (·.2)
  match firstFit 64 sp.flights (rs.map (fun r => (r.1, r.2.1))), firstFit 262144 sp.cacheBytes (rs.map (fun r => (r.2.2.1, r.2.2.2))) with
  | some a, some b => some (a, sp.flights, b, sp.cacheBytes)
  | _, _ => none

/-- Every range of a job can be placed. -/
def State.veFits (s : State) (j : Nat) : Bool :=
  (coresOf (partOfJob j)).all (fun c => (s.vePlace c (s.job j).image).isSome)

/-- A lock that an image uses is still quarantined (R308). -/
def State.quarantined (s : State) (j : Nat) : Bool :=
  (coresOf (partOfJob j)).any (fun c => ((s.job j).image.coreSpec c).locks.any (fun l => ((s.core c).lock l.index).quar))

/-- The pounds and locks of an image on one core (R60, R280). -/
def CoreSt.assign (c : CoreSt) (j : Nat) (guardOn : Bool) (sp : CoreSpec) : CoreSt :=
  let pounds := sp.pounds.foldl (fun t p =>
    if p.base < p.bound then
      Table.put {} t p.index { valid := true, guardOn := guardOn, remoteW := p.remoteW, remoteR := p.remoteR,
                               readShare := p.readShare, owner := j, hash := p.hash, base := p.base, bound := p.bound }
    else t) c.spad.pounds
  let free := (List.range 16).filter (fun i => !(Table.look {} c.spad.credits i).valid)
  let credits := (free.zip sp.credits).foldl (fun t e =>
    Table.put {} t e.1 { valid := true, avail := e.2.count, job := j, destCore := e.2.destCore, destPound := e.2.destPound,
                         count := e.2.count }) c.spad.credits
  let locks := sp.locks.foldl (fun t l =>
    Table.put {} t l.index { valid := true, owner := j, cohort := l.cohort, remote := l.remote, rest := l.rest, depth0 := l.depth,
                             depth := l.depth, fill := BitVec.ofNat 32 l.rest }) c.locks
  { c with spad := { c.spad with pounds := pounds, credits := credits }, locks := locks }

/-- Addresses `n` from each of some starts. -/
def spans (starts : List Nat) (n : Nat) : List Nat := starts.flatMap (fun a => (List.range n).map (a + ·))

/-- Contents undefined at the start of a job (R93, R169): all of the core's banks, tiles and operand cache but those that the context
maps `held` of the other jobs that live there name, and those jobs' cache windows `windows` (start, length; DESIGN CHOICE, log 52). -/
def CoreSt.startFresh (c : CoreSt) (core epoch : Nat) (held : List ContextMap) (windows : List (Nat × Nat)) : CoreSt :=
  let keep (kind : Nat) (old : WMem) (ks : List Nat) : WMem :=
    ({ epoch := epochOf epoch core kind, cells := [] } : WMem).writes (ks.map (fun k => (k, old.read k)))
  { c with
    me := { c.me with acc := keep 2 c.me.acc (spans ((held.flatMap (·.banks)).map (accKey · 0 0)) 65536) },
    ve := { c.ve with
      tiles := keep 4 c.ve.tiles (spans ((held.flatMap (·.tiles)).map (· * 2048)) 2048),
      cache := ({ epoch := epochOf epoch core 5, cells := [] } : Mem).writes
        (windows.flatMap (fun w => (List.range w.2).map (fun i => (w.1 + i, c.ve.cache.read (w.1 + i))))) } }

/-- The program counter at which a placement starts or resumes an image on a core. -/
def Placement.entryPc (pl : Placement) (core image : Nat) : Nat :=
  ((pl.resume.find? (fun e => e.1 == core % 2 && e.2.1 == image)).map (·.2.2)).getD 0

/-- The control core restarts at the resume point of an image. -/
def Cc.restart (c : Cc) (pl : Placement) (core image : Nat) : Cc :=
  { c with pc := BitVec.ofNat 64 (pl.entryPc core image), halted := false, stall := .none, window := [] }

/-! ## The two schedules (R26) -/

/-- The programs of a placement as they lie in HBM, one after the other: the paired schedule's for both cores, then the solo one's. -/
def Placement.programs (q : Placement) : List (List Byte) := [q.program0, q.program1, q.solo0, q.solo1]

/-- Where a job's schedules lie in its partition's HBM area. -/
def State.scheduleAt (s : State) (j : Nat) : Nat := ((s.part (partOfJob j)).firstBarge + (s.job j).image.schedBarge) * 4096

/-- Both schedules of a job go into HBM (R26). -/
def State.storeSchedules (s : State) (j : Nat) : State :=
  { s with hbm := s.hbm.writeN (s.scheduleAt j) (s.job j).placement.programs.flatten }

/-- The program of a core in one of the two schedules, as HBM holds it. -/
def State.programOf (s : State) (j c : Nat) (solo : Bool) : List Byte :=
  let ps := (s.job j).placement.programs
  let n := c % 2 + if solo then 2 else 0
  s.hbm.readN (s.scheduleAt j + ((ps.take n).map List.length).sum) (ps.getD n []).length

/-- The schedule of a job's placement runs on its cores from its resume point on (R26, R447), unless it runs there already or another
cohort of the job is in compute, whose end it waits for (DESIGN CHOICE, log 146). -/
def State.useSchedule (s : State) (j k : Nat) (solo : Bool) : State :=
  let b := s.job j
  if b.soloProg = solo ∨ b.cohorts.any (fun e => e.1 != k && e.2.phase == .computing) then s
  else
    let s1 := s.modJob j (fun b => { b with soloProg := solo })
    if b.placement.solo0 = [] ∧ b.placement.solo1 = [] then s1
    else s1.each (coresOf (partOfJob j)) (fun s c => s.modCore c (fun v =>
      let cc := v.cc.restart b.placement c b.image.index
      { v with cc := { cc with mem := cc.mem.writeN 0 (s1.programOf j c solo) } }))

/-- JOB_START of a LOADED job, or its start by a switch: pounds, locks, credits, ranges, row table, scale and attention records,
the placement's programs, from HBM (R26, R60, R152, R170, R228, R246, R280, R320). -/
def State.startJob (s : State) (j : Nat) : State :=
  let b := s.job j
  let p := partOfJob j
  let others := s.live p
  let e := s.newEpoch
  let solo := s.soloAt s.time.now && !(b.placement.solo0.isEmpty && b.placement.solo1.isEmpty)
  let s1 := e.2.each (coresOf p) (fun s c =>
    let pl := s.vePlace c b.image
    s.modCore c (fun k =>
      let k1 := (k.assign j b.guardOn (b.image.coreSpec c)).startFresh c e.1
        (others.map (fun i => ((s.job i).image.coreSpec c).context))
        (others.map (fun i => (Table.look (0, 0, 0, 0) k.ve.ranges i).2.2))
      let cc := k1.cc.restart b.placement c b.image.index
      { k1 with
        cc := { cc with mem := cc.mem.writeN 0 (s.programOf j c solo) },
        ve := { k1.ve with ranges := Table.put (0, 0, 0, 0) k1.ve.ranges j (pl.getD (0, 0, 0, 0)) } }))
  let places := b.image.places
  let rows := (List.range 1024).flatMap (fun _ => leBytes 4 0x3FF)
  let s2 := s1.modCore (placeCore j places) (fun k => { k with spad := writePound k.spad places.pound places.rowTable rows })
  let cohorts : Table Cohort := []
  let s3 := s2.each (jobsOf p) (fun s i =>
    if ((s.job i).state = .running ∨ (s.job i).state = .parked) ∧ (s.job i).placement ≠ b.placement then
      (s.modJob i (fun x => { x with placement := b.placement })).storeSchedules i
    else s)
  let s4 := s3.modJob j (fun x => { x with state := .running, cohorts := cohorts, startedAt := s.time.now, soloProg := s.soloAt s.time.now })
  let s5 := ({ s4 with tele := Table.put {} s4.tele j {} }.startTensors j).startKv j
  s5.modPart p (fun q => { q with started := q.started + 1 })

/-! ## Parking and resuming (R331, R332) -/

/-- Bytes of a bank and of a tile. -/
def CoreSt.bankBytes (c : CoreSt) (b : Nat) : List Byte := wordsToBytes (c.me.acc.readN (accKey b 0 0) 65536)
def CoreSt.tileBytes (c : CoreSt) (t : Nat) : List Byte := wordsToBytes (c.ve.tiles.readN (t * 2048) 2048)

/-- Where a bank's and a tile's image lie in the save area. -/
def saveBank (b : Nat) : Nat := b * 262144
def saveTile (t : Nat) : Nat := 4 * 262144 + t * 8192

/-- Where parked descriptor `i` lies in the save area, 64 bytes each in issue order (DESIGN CHOICE, log 140: R331 gives the section's
size, not its layout; captured scalars and descriptors beyond its 256 places are kept beside it). -/
def saveEntry (i : Nat) : Nat := 4 * 262144 + 16 * 8192 + 64 * i

/-- Insert a parked descriptor by issue order. -/
def insertEntry (e : Nat × QEntry) : List (Nat × QEntry) → List (Nat × QEntry)
  | [] => [e]
  | x :: xs => if e.2.stamp < x.2.stamp then e :: x :: xs else x :: insertEntry e xs

/-- The descriptors of job `j` on a core in issue order, each with its queue: those of its killed commands and those still queued. -/
def CoreSt.entriesOf (c : CoreSt) (j : Nat) : List (Nat × QEntry) :=
  let all := ((c.running.filter (fun r => r.job == j)).map (fun r => (r.queue, r.entry))) ++
    ([0, 1, 2, 3].flatMap (fun q => ((c.queue q).filter (fun e => e.job == j)).map (fun e => (q, e))))
  all.foldl (fun l e => insertEntry (e.1, { e.2 with headAt := none }) l) []

/-- Park job `j` on a core (steps 2 and 3 of R332): its uncommitted commands are killed and go with its queued descriptors into the
save area, in issue order; then its banks and tiles. -/
def CoreSt.park (c : CoreSt) (j draw up : Nat) (m : ContextMap) : CoreSt × Parked :=
  let rec_ : Parked := {
    entries := c.entriesOf j,
    sets := [c.me.set0.state, c.me.set1.state], active := c.me.active,
    modes := m.banks.flatMap (fun b => (List.range 256).map (fun r => (b * 256 + r, c.me.int32 b r))) }
  let c1 := (((c.endWaits j up).takeBack (fun x => x.job == j)).stop draw up (fun r => r.job == j)).keep up (fun e => e.job != j)
  let sp0 := writePound c1.spad m.savePound (m.saveOffset + saveEntry 0)
    ((rec_.entries.take 256).flatMap (fun e => wordsToBytes e.2.words))
  let sp1 := m.banks.foldl (fun sp b => writePound sp m.savePound (m.saveOffset + saveBank b) (c1.bankBytes b)) sp0
  let sp2 := m.tiles.foldl (fun sp t => writePound sp m.savePound (m.saveOffset + saveTile t) (c1.tileBytes t)) sp1
  ({ c1 with spad := sp2 }, rec_)

/-- A weight set after step 4 of R332: in its state at the park, with the contents of the plane that the map names. A set that the map
does not name has undefined contents. -/
def CoreSt.reload (c : CoreSt) (m : ContextMap) (k : Parked) (draw i : Nat) : WeightSet :=
  if k.sets.getD i 0 = 0 then {}
  else
    let image := match m.sets.find? (fun e => e.1 == i) with
      | some e => readPlane c.spad e.2
      | none => (List.range (imageBytes 1)).map (fun a => Config.freeOut draw (cacheDest (2 ^ 20 * (i + 1) + a)))
    { (loadedSet image) with state := k.sets.getD i 0 }

/-- Steps 4 and 5 of R332 on a core. -/
def CoreSt.resume (c : CoreSt) (up draw : Nat) (m : ContextMap) (k : Parked) (pl : Placement) (core image : Nat) : CoreSt :=
  let bank (b : Nat) := bytesToWords (readPound c.spad m.savePound (m.saveOffset + saveBank b) 262144)
  let tile (t : Nat) := bytesToWords (readPound c.spad m.savePound (m.saveOffset + saveTile t) 8192)
  let acc := m.banks.foldl (fun a b => a.writeN (accKey b 0 0) (bank b)) c.me.acc
  let mode := k.modes.foldl (fun t e => Table.put false t e.1 e.2) c.me.mode
  let me := { c.me with acc := acc, mode := mode, set0 := c.reload m k draw 0, set1 := c.reload m k draw 1, active := k.active }
  let tiles := m.tiles.foldl (fun a t => a.writeN (t * 2048) (tile t)) c.ve.tiles
  let c1 := { c with me := me, ve := { c.ve with tiles := tiles }, cc := c.cc.restart pl core image }
  let words (i : Nat) (e : QEntry) : List Word :=
    if i < 256 then bytesToWords (readPound c.spad m.savePound (m.saveOffset + saveEntry i) 64) else e.words
  let back := ((List.range k.entries.length).zip k.entries).map (fun e => (e.2.1, { e.2.2 with words := words e.1 e.2.2 }))
  [0, 1, 2, 3].foldl (fun c q =>
    c.setQueue q (fixHead up (((back.filter (fun e => e.1 == q)).map (·.2)) ++ c.queue q))) c1

/-- Park a victim (step 2 of R332): PARKED, counted as pre-empted. -/
def State.parkJob (s : State) (j : Nat) : State :=
  let p := partOfJob j
  let d := s.draw
  let b := s.job j
  let s0 := d.2.each (coresOf p) (fun s c => s.dropRemote c d.1 (fun r => r.job == j))
  let ps := (coresOf p).map (fun c => (c, (s0.core c).park j d.1 s.time.up (b.image.coreSpec c).context))
  let s1 := (ps.foldl (fun s e => s.setCore e.1 e.2.1) s0).modReqs p (fun l => l.filter (fun r => r.job != j || r.core == noCore))
  let s2 := s1.modPart p (fun q => { q with preempted := q.preempted + 1 })
  s2.modJob j (fun x => { x with state := .parked, parked := ps.map (fun e => (e.1, e.2.2)) })

/-- Resume a PARKED job. -/
def State.resumeJob (s : State) (j : Nat) : State :=
  let b := s.job j
  let d := s.draw
  let s1 := b.parked.foldl (fun s e => s.modCore e.1 (fun c =>
    c.resume s.time.up d.1 (b.image.coreSpec e.1).context e.2 b.placement e.1 b.image.index)) d.2
  s1.modJob j (fun x => { x with state := .running, parked := [] })

/-! ## Switches -/

/-- Nanoseconds between the starts of two switches on a partition (R330). -/
def switchHoldNs : Nat := 250000

/-- The conditions of R330, and R170 for a LOADED incoming job. -/
def State.preemptRefusal (s : State) (c : Cmd) : Option (Nat × Nat) :=
  let i := c.f 0 0 7
  let p := c.job / 8
  let v := s.job c.job
  let n := s.job i
  if i / 8 ≠ p then some (St.badParam, 8)
  else if v.state ≠ .running then some (St.wrongState, v.state.code)
  else if n.state ≠ .loaded ∧ n.state ≠ .parked then some (St.wrongState, n.state.code)
  else if !v.bulk ∧ n.bulk then some (St.denied, 5)
  else if !(s.part p).preemptEn then some (St.denied, 5)
  else if n.state = .loaded ∧ !s.veFits i then some (St.noMemory, 0)
  else none

/-- A switch begins. -/
def State.beginSwitch (s : State) (c : Cmd) : State :=
  let p := c.job / 8
  (s.modPart p (fun q => { q with
    switch := some { victim := some c.job, incoming := c.f 0 0 7, parkedAt := none },
    lastSwitch := some s.time.up })).later c (.switch p)

/-- Whether a partition must hold a JOB_PREEMPT for job `i` now: for 250 µs after the last switch began (R330), and while a lock of a
LOADED incoming job is quarantined (R308; DESIGN CHOICE, log 140). -/
def State.switchHeld (s : State) (p i : Nat) : Bool :=
  (s.part p).switch.isSome || ((s.job i).state == .loaded && s.quarantined i) ||
  (match (s.part p).lastSwitch with | some t => decide (s.time.up < t + switchHoldNs) | none => false)

/-- Step 1 of a switch has ended: no non-pre-emptible command of the victim runs. -/
def State.stepOneDone (s : State) (p v : Nat) : Bool :=
  (coresOf p).all (fun c => !(s.core c).running.any (fun r => r.job == v && r.nonpre))


/-! ## The barge arbiters (R339 to R344) -/

/-- The activity of a maintenance request. -/
def State.actOf (s : State) (r : BargeReq) : Activity := s.act (r.job - actWho 0)

/-- The class in which a request competes now (R340, R343, R694): 0 LATENCY, 1 maintenance at the urgent or the forced level, 2 BULK, 3
maintenance at the normal level. -/
def State.classOf (s : State) (r : BargeReq) : Nat :=
  if r.job < 96 then (if (s.job r.job).bulk then 2 else 0) else if (s.actOf r).level = 0 then 3 else 1

/-- A maintenance request at the forced level takes one grant in 16 of its arbiter as the aged request (R694). -/
def State.forcedTurn (s : State) (q : Part) (r : BargeReq) : Bool :=
  decide (96 ≤ r.job) && (s.actOf r).level == 2 && decide (15 ≤ Table.look 0 q.turns r.weir)

/-- The order of service of two requests: aged first, then class, age and job ID (R340, R341). -/
def State.servedFirst (s : State) (q : Part) (a b : BargeReq) : Bool :=
  let aged (r : BargeReq) : Bool :=
    ((s.classOf r == 1 || s.classOf r == 2) && decide (q.ageMax ≤ r.age)) || s.forcedTurn q r
  let key (r : BargeReq) : Nat := if aged r then s.classOf r else 4 + s.classOf r
  decide (key a < key b) || (key a == key b && (decide (a.since < b.since) || (a.since == b.since && decide (a.job < b.job))))

/-- A request that stands at its arbiter now: that of a suspended activity stands back (R691). -/
def State.asks (s : State) (r : BargeReq) : Bool := decide (r.job < 96) || (s.actOf r).phase == .running

/-- A request's bucket holds its length now; device traffic draws on no weir (R345). -/
def State.tokensFor (s : State) (p : Nat) (r : BargeReq) : Bool :=
  decide (96 ≤ r.job) || decide (r.bytes * 256 ≤ ((Table.look {} (s.part p).weirs r.key).refill r.key s.time.up).level)

/-- The request that an arbiter grants next (R339 to R341). The one arbiter of Elcor egress serves links with a bucket each: of its
requests, those whose bucket lacks tokens (DESIGN CHOICE, log 137) or whose link lacks a credit for a barge (R391) stand back. -/
def State.nextGrant (s : State) (p weir : Nat) : Option BargeReq :=
  let q := s.part p
  (q.reqs.filter (fun r => r.weir == weir && s.asks r && (weir != 3 || (s.tokensFor p r && decide (0 < (s.link r.link).spare r.link))))).foldl (fun (a : Option BargeReq) r =>
    match a with
    | none => some r
    | some x => if s.servedFirst q r x then some r else some x) none

/-- A granted barge of a DM_HBM_READ is read, checked and written to its place (R351, R361); a failed check kills the job. Its tag and
its counts wait for the commit. -/
def State.readGranted (s : State) (g : BargeReq) : State :=
  match (s.core g.core).running.find? (fun r => r.queue == 3 && r.entry.stamp == g.cmd) with
  | none => s
  | some r =>
    let ws := r.entry.words
    let dp := (planeAt ws 8).flat
    let p := partOfCore g.core
    let n := (s.part p).firstBarge + hBarge ws + g.index
    match readBarge s (Table.look [] s.sluice p) dp (hSluice ws) n g.index with
    | .inl f => s.faultJob g.core r.job f 0
    | .inr bs =>
      s.modCore g.core (fun k =>
        let sp := { k.spad with bytes := k.spad.bytes.writes (((r.dest.drop (4096 * g.index)).take 4096).zip bs) }
        let tags := if dp.tagmode = 0 then [] else ((newTags sp dp []).drop g.index).take 1
        let done : Running := { r with effects := r.effects ++
          [.tags tags, .hbmReads [(stackOf n, s.storedLen dp n)] (hSluice ws)] }
        { k with spad := sp, running := k.running.map (fun x => if x == r then done else x) })

/-- A granted barge of a DM_SEND_CORE leaves its core. The next one takes its credit and goes to the weir, or waits for a credit (R80,
R82). -/
def State.sendGranted (s : State) (g : BargeReq) : State :=
  match (s.core g.core).sends.find? (fun x => x.cmd == g.cmd) with
  | none => s
  | some x =>
    let s1 := s.modCore x.dest (fun k => { k with arrivals := k.arrivals ++
      [{ src := g.core, job := x.job, credit := x.credit, plane := x.plane, bytes := x.todo.headD [], cmd := x.cmd }] })
    match x.todo.tail with
    | [] => s1.modCore g.core (fun k => { k with sends := k.sends.erase x })
    | b :: bs =>
      let next : Send := { x with todo := b :: bs, asked := decide (0 < (Table.look {} (s.core g.core).spad.credits x.credit).avail) }
      let s2 := s1.modCore g.core (fun k => { k with sends := k.sends.map (fun y => if y == x then next else y) })
      if next.asked then
        (s2.modCore g.core (fun k => { k with spad := k.spad.takeCredit x.credit })).request g.core 2 x.job 0 x.cmd (g.index + 1)
          [b.length]
      else s2.modCore g.core (fun k => { k with creditWait := some s.time.up })

/-- `n` barges of a link send enter the egress of its link. -/
def State.feedLink (s : State) (c n : Nat) (x : LinkSend) : State :=
  if n = 0 then s
  else
    (s.modCore c (fun k => { k with linkSends := k.linkSends.flatMap (fun y => if y == x then x.after n s.time.up else [y]) })).sendOn
      x.link (x.msgs n)

/-- A granted barge of a DM_LINK_SEND enters the egress of its link (R339, R414). -/
def State.linkGranted (s : State) (g : BargeReq) : State :=
  match (s.core g.core).linkSends.find? (fun x => x.cmd == g.cmd && x.link == g.link) with
  | none => s
  | some x => s.feedLink g.core 1 x

/-- Sends that cross a twin link go on as its credits come back (R391). -/
def State.feedTwin (s : State) (l : Nat) : State :=
  if l < 32 then s
  else s.each (List.range 24) (fun s c =>
    s.each ((s.core c).linkSends.filter (fun x => x.link == l)) (fun s x => s.feedLink c ((s.link l).spare l) x))

/-- The nanoseconds for which a grant holds its arbiter (R339): the barge's stored bytes at the resource's reference capacity (DESIGN
CHOICE, log 137). -/
def grantNs (weir bytes : Nat) : Nat := ceilDiv bytes (weirRef weir)

/-- Grant one barge when no grant is in force at the arbiter and the bucket holds its stored length (R339, R344). -/
def State.grantBarge (s : State) (p weir link : Nat) : State :=
  match s.nextGrant p weir with
  | none => s
  | some r =>
    if s.time.up < Table.look 0 (s.part p).held weir ∨ (weir = 3 ∧ r.link ≠ link) ∨ !s.tokensFor p r then s
    else
      let w := (Table.look {} (s.part p).weirs r.key).refill r.key s.time.up
      let w' := if 96 ≤ r.job then w else { w with level := w.level - r.bytes * 256 }
      let s1 := s.modPart p (fun q => { q.settleStall s.time.up with
        weirs := Table.put {} q.weirs r.key w',
        held := Table.put 0 q.held weir (s.time.up + grantNs weir r.bytes),
        turns := Table.put 0 q.turns weir (if 96 ≤ r.job ∧ (s.actOf r).level = 2 then 0 else Table.look 0 q.turns weir + 1),
        reqs := (q.reqs.erase r).map (fun x => if x.weir == weir then { x with age := x.age + 1 } else x) })
      let s2 := if weir ≤ 1 ∧ r.job < 96 then { s1 with integ := { s1.integ with granted := s1.integ.granted + r.bytes } } else s1
      let s3 := if r.core = noCore then s2.moveGranted p r
        else if weir = 0 then s2.readGranted r else if weir = 2 then s2.sendGranted r
        else if weir = 3 then s2.linkGranted r else s2
      s3.emit (.barge p weir r.link r.job r.bytes)

/-! ## JOB_LOAD (R319 and the rules that refuse a load) -/

/-- Jobs of a partition that hold a model. -/
def State.resident (s : State) (p : Nat) : List Nat := (jobsOf p).filter (fun j => (s.job j).state != .free)

/-- Two lists hold the same pairs, each as often. -/
def samePairs (a b : List (Nat × Nat)) : Bool := a.length == b.length && a.all (fun x => a.count x == b.count x)

/-- Two ranges [a, b) and [c, d) overlap. -/
def overlap (a b c d : Nat) : Bool := decide (a < d) && decide (c < b)

/-- Pounds of an image can be placed on a core beside those of the other jobs and those that a killed job still holds (R59). DESIGN
CHOICE (log 134): a pound index that another job already uses cannot be placed either. -/
def State.poundsFit (s : State) (c : Nat) (sp : CoreSpec) : Bool :=
  let held := (s.core c).spad.pounds.filterMap (fun e => if e.2.valid then some (e.1, e.2.base, e.2.bound) else none)
  let planned := (s.resident (partOfCore c)).flatMap (fun j =>
    ((s.job j).image.coreSpec c).pounds.map (fun q => (q.index, q.base, q.bound)))
  sp.pounds.all (fun q => (held ++ planned).all (fun e => e.1 != q.index && !overlap q.base q.bound e.2.1 e.2.2))

/-- Lock indices of an image are free of the other jobs' (R279). -/
def State.locksFit (s : State) (c : Nat) (sp : CoreSpec) : Bool :=
  let taken := (s.resident (partOfCore c)).flatMap (fun j => ((s.job j).image.coreSpec c).locks.map (·.index))
  sp.locks.all (fun l => !taken.contains l.index)

/-- Credit entries of an image fit in the core's 16. -/
def State.creditsFit (s : State) (c : Nat) (sp : CoreSpec) : Bool :=
  let taken := ((s.resident (partOfCore c)).map (fun j => ((s.job j).image.coreSpec c).credits.length)).sum
  decide (taken + sp.credits.length ≤ 16)

/-- The pools of an image's KV tensors hold what R264 asks for and lie in the partition's area. -/
def Part.poolsFit (q : Part) (img : Image) : Bool :=
  img.kv.all (fun v => decide (v.minPool img.rowsSolo ≤ v.extents) &&
    decide (v.poolBarge + v.extents * v.frames ≤ q.hbmGib * gibBarges))

/-- The context map obeys R331: it is marked so, and on each core the save area lies on a 4 KiB boundary in one of the job's
pounds. -/
def Image.contextLegal (img : Image) : Bool :=
  img.contextOk && img.cores.all (fun c =>
    c.context.saveOffset % 4096 == 0 && c.context.banks.all (· < 4) && c.context.tiles.all (· < 16) &&
    c.context.sets.all (fun e => decide (e.1 < 2)) &&
    c.pounds.any (fun p => p.index == c.context.savePound && decide (c.context.saveOffset + 1196032 ≤ (p.bound - p.base) * 4096)))

/-- The sizes that R431 and R444 bound, and a step count that divides N (R518). -/
def Image.sizesLegal (img : Image) : Bool :=
  decide (img.mirror.stateBytes ≤ 262144) && decide (img.mirror.summaryBytes ≤ 262144) &&
  decide (img.shape.n * img.shape.cIn * img.shape.b ≤ 131072) && decide (img.mirror.kvSummaryBytes ≤ 14680064) &&
  decide (img.mirror.jobRecordBytes ≤ 65536) && decide (img.mirror.restoreNs ≤ 80000) &&
  img.shape.steps != 0 && img.shape.n % img.shape.steps == 0

/-- No pound of the image has the reserved HASH, which the lockkeeper refuses (R56). -/
def Image.hashLegal (img : Image) : Bool := img.cores.all (fun c => c.pounds.all (fun p => decide (p.hash < 3)))

/-- CAL_SEL bit of tensor `i`. -/
def Cmd.calBit (c : Cmd) (i : Nat) : Bool := bitAt (c.p (2 + i / 32)) (i % 32)

/-- The first CAL_SEL word that selects a table the model does not carry (R148): only activation tensors have tables. -/
def Cmd.calBad (c : Cmd) (img : Image) : Option Nat :=
  ((List.range 128).find? (fun i =>
    match img.tensors[i]? with
    | some t => if t.weight then c.calBit i else (if c.calBit i then t.calibrated else t.learned).isEmpty
    | none => c.calBit i)).map (fun i => 10 + i / 32)

/-- A Bashaba-mode INT8 activation tensor has one σ (R151). -/
def Cmd.bashabaOk (c : Cmd) (img : Image) : Bool :=
  ((List.range img.tensors.length).zip img.tensors).all (fun e =>
    if e.2.bashaba && !e.2.weight then
      let sig := if c.calBit e.1 then e.2.calibrated else e.2.learned
      sig.all (fun w => w == sig.headD 0)
    else true)

end Sys2Proof.Machine
end

