-- ==== Sys2Proof/Machine/ResetOps.lean ====
section
/-! DEFINITION. Resets and bring-up (18_bringup_and_reset.md): what each reset leaves (R668), the quiesce (R658, R661), the
work of each phase (R646 to R653). -/

namespace Sys2Proof.Machine

/-! ## What a reset leaves (R652, R668) -/

/-- A core after a cold, host or warm reset, in epoch `e`. -/
def freshCore (e c : Nat) : CoreSt :=
  { spad := { bytes := { epoch := epochOf e c 0 } }, cc := { mem := { epoch := epochOf e c 1 } },
    me := { acc := { epoch := epochOf e c 2 }, rescale := { epoch := epochOf e c 3 } },
    ve := { tiles := { epoch := epochOf e c 4 }, cache := { epoch := epochOf e c 5 } } }

/-- The always-on part of a core's health. -/
def Health.always (h : Health) : Health :=
  { state := h.state, source := h.source, transient := h.transient, permanent := h.permanent, segFail := h.segFail }

/-- The state in which a bring-up begins; `warm` keeps the always-on fields, schedule time and the PCIe configuration (R8, R9). DESIGN
CHOICE (log 143): `RESET_WARM.COUNT`, which its table does not mark always-on, is kept over a warm reset too, because its Meaning has it
count the warm resets since the last cold or host reset. -/
def State.cleared (s : State) (warm : Bool) : State :=
  let e := s.newEpoch
  { time := { up := s.time.up, now := if warm then s.time.now else 0 },
    cores := (List.range 24).map (fun c => (c, freshCore e.1 c)),
    health := if warm then Table.mapV {} s.health (fun _ h => h.always) else [],
    hbm := { epoch := epochOf e.1 24 0 },
    numVfs := if warm then s.numVfs else 0, vfEnable := warm && s.vfEnable,
    msixOn := if warm then s.msixOn else [], msixHold := if warm then s.msixHold else [],
    msixPend := if warm then s.msixPend else [], config := if warm then s.config else [], msixRam := if warm then s.msixRam else [],
    hbmStacks := if warm then Table.mapV {} s.hbmStacks (fun _ k => { ueAddr := k.ueAddr }) else [],
    wharves := if warm then Table.mapV {} s.wharves (fun _ w => { refFailover := w.refFailover }) else [],
    refs := if warm then Table.mapV {} s.refs (fun _ r => { events := r.events }) else [],
    pair := if warm then { epoch := s.pair.epoch, takeovers := s.pair.takeovers, fences := s.pair.fences,
                           lastTakeover := s.pair.lastTakeover } else {},
    integ := if warm then { chipSuspect := s.integ.chipSuspect, patternVersion := s.integ.patternVersion, sigNext := s.integ.sigNext,
                            sigOldest := s.integ.sigOldest, ring := s.integ.ring, pkg := s.integ.pkg }
             else { ring := s.integ.ring, pkg := s.integ.pkg },
    flash := s.flash.afterReset warm,
    rst := { epoch := e.1, porLow := s.rst.porLow, perstLow := s.rst.perstLow, coldPend := s.rst.coldPend,
             kind := if warm then s.rst.kind else 0, cause := if warm then s.rst.cause else 0,
             attempts := if warm then s.rst.attempts else 0, priorPhase := if warm then s.rst.priorPhase else 0,
             warm := if warm then s.rst.warm else 0, retired := if warm then s.rst.retired else none,
             coolSince := s.rst.coolSince, perstPend := s.rst.perstPend },
    mgmt := { sensors := s.mgmt.sensors, tripped := warm && s.mgmt.tripped, thermtrip := warm && s.mgmt.thermtrip,
              peak := if warm then s.mgmt.peak else 0, warnings := if warm then s.mgmt.warnings else 0,
              forced := if warm then s.mgmt.forced else 0 },
    census := { shadow := { epoch := epochOf e.1 24 2 } },
    jtag := s.jtag, free := s.free, out := s.out, pending := s.pending }

/-- Bring-up begins (R641, R644): kind 0 cold and 1 host at phase 0, 2 warm at phase 1. -/
def State.beginBringup (s : State) (kind : Nat) : State :=
  let s1 := s.cleared (kind == 2)
  { s1 with rst := { s1.rst with
      kind := kind, attempts := min 15 (s1.rst.attempts + 1), phase := if kind = 2 then 1 else 0,
      beganUp := s.time.up, phaseUp := s.time.up, coldPend := false, perstPend := false } }

/-- Both reset pins are high: a cold bring-up when POR_N has been low, else a host bring-up. -/
def State.pinsHigh (s : State) : State :=
  if s.rst.porLow ∨ s.rst.perstLow then s else s.beginBringup (if s.rst.coldPend then 0 else 1)

/-! ## Warm resets (R658 to R663) -/

/-- RESET_STATUS.CAUSE. -/
def WarmCause.code : WarmCause → Nat
  | .devReset => 1 | .hbmUe => 2 | .spadUe => 3 | .thermal => 4 | .watchdog => 5 | .fwActivate => 6 | .retire => 7
  | .linkVariant => 8

/-- The quiesce: outputs hi-Z, rings, sends and heartbeats stopped, pending ledger writes completed. -/
def State.quiesceNow (s : State) (cause : WarmCause) : State :=
  let s1 := s.hiZAll
  let s2 := if s1.flash.pendingSince.isSome then s1.writeLedger else s1
  { s2 with rst := { s2.rst with
      quiesce := some s.time.up, cause := cause.code, priorPhase := s.rst.phase, warm := satAdd s2.rst.warm 1,
      watchdogAt := none, afterReply := none } }

/-- A warm-reset cause (R642): it joins a quiesce, restarts a warm bring-up from phase 1, and is lost in a reset of a higher
kind. -/
def State.warmReset (s : State) (cause : WarmCause) : State :=
  if s.rst.porLow ∨ s.rst.perstLow ∨ s.rst.thermHold ∨ s.rst.railFault ∨ s.rst.quiesce.isSome then s
  else if s.rst.ready ∨ s.rst.stop ≠ 0 then s.quiesceNow cause
  else if s.rst.kind = 2 then s.beginBringup 2
  else s

/-- The chip alone holds the pair's streams (R661). -/
def State.aloneWithStreams (s : State) : Bool :=
  s.pair.state == .solo || s.pair.state == .unmirrored || s.pair.state == .syncing

/-- The end of a quiesce: warm bring-up, or the thermal hold in phase 0 (R663). -/
def State.endQuiesce (s : State) : State :=
  if s.mgmt.thermtrip then
    let s1 := s.cleared true
    { s1 with rst := { s1.rst with thermHold := true, coolSince := none } }
  else s.beginBringup 2

/-- Nanoseconds between a watchdog expiry and its warm reset (R662), and of the cool time of R663. -/
def watchdogNs : Nat := 1000000
def coolNs : Nat := 10000000000

/-- A watchdog's warm reset is due. -/
def State.watchdogDue (s : State) : Bool :=
  match s.rst.watchdogAt with
  | some t => decide (t + watchdogNs ≤ s.time.up)
  | none => false

/-- Every sensor has been below 95 °C for 10 s. -/
def State.cool (s : State) : Bool :=
  match s.rst.coolSince with
  | some t => decide (t + coolNs ≤ s.time.up)
  | none => false

/-! ## Phase 1 (R646, R647, R626, R628, R630, R636) -/

/-- Stop bring-up (R655). -/
def State.stopBringup (s : State) (code : Nat) : State := { s with rst := { s.rst with stop := code } }

/-- The fields of a CORE_MAP row are a permutation of 0 to 6 (R18). -/
def coreMapOk (w : Word) : Bool :=
  let cols := (List.range 7).map (fun i => bits w.toNat (3 * i) 3)
  (List.range 7).all (fun k => cols.contains k)

/-- The ledger image that R628 selects becomes the current one. -/
def State.recoverLedger (s : State) : State :=
  let r := selectImage s.flash.bankA s.flash.bankB
  let s1 := { s with flash := { s.flash with
    bank := r.1.getD 0, factory := r.1.isNone, seq := r.2.1, ledger := r.2.2, pending := r.2.2, pendingSince := none } }
  if r.1.isNone then s1.faultEvent Cause.ledgerLost none none 0 {} else s1

/-- The boot ROM boots an image: FW_BOOT_TRIES counts boots of PENDING; another image booted in place of PENDING reports
`FW_FALLBACK` and clears PENDING (R636). -/
def State.bootFirmware (s : State) : Option State :=
  match s.flash.boot with
  | none => none
  | some (i, pend) =>
    let s1 := { s with flash := { s.flash with
      fwImage := i, bootTries := if pend then s.flash.bootTries + 1 else s.flash.bootTries, boots := s.flash.boots + 1 } }
    if s.flash.ledger.fwPending.isSome ∧ !pend then
      some ((s1.faultEvent Cause.fwFallback none none 0 {}).ledgerNow (fun l => { l with fwPending := none }))
    else some s1

/-- Core map, core health, signature ring and pattern library from the ledger and the flash. -/
def State.fromLedger (s : State) : State :=
  let l := s.flash.ledger
  let h := (List.range 24).foldl (fun t c =>
    let e := Table.look (0, 0) l.health c
    Table.upd {} t c (fun v => { v with state := e.1, source := e.2 })) s.health
  let head := match s.integ.ring.getLast? with | some r => r.index + 1 | none => l.checkpoint.2
  let tail := match s.integ.ring.head? with | some r => r.index | none => l.checkpoint.1
  let warm := s.rst.kind == 2
  { s with
    coreMap := l.coreMap, health := h,
    links := l.marked.foldl (fun t n => Table.upd {} t n (fun k => { k with state := .markedOut })) s.links,
    integ := { s.integ with
      patternVersion := if warm then s.integ.patternVersion else l.pattern,
      sigNext := if warm then s.integ.sigNext else lo32 head, sigOldest := if warm then s.integ.sigOldest else lo32 tail,
      libValid := s.integ.pkg.isSome } }

/-- The work of phase 1. -/
def State.phaseOne (s : State) (r : PhaseReport) : State :=
  if !r.anchorsOk then s.stopBringup 3
  else
    let s1 := { s with flash := { s.flash with
      bbtValid := true, bad := BitVec.ofNat 32 (s.flash.factoryBad.length + s.flash.grown.length) } }
    let s2 := (s1.each r.badPages (fun s p => s.flashUe (p / 256) (p % 256))).recoverLedger
    match s2.bootFirmware with
    | none => s2.stopBringup 2
    | some s3 =>
      if s3.flash.ledger.coreMap.length = 4 ∧ s3.flash.ledger.coreMap.all coreMapOk then
        let s4 := s3.fromLedger
        { s4 with rst := { s4.rst with phase := 2, phaseUp := s.time.up } }
      else s3.stopBringup 1

/-! ## Phase 2 (R648 to R651, R656, R657) -/

/-- The logical core at a site, if it carries one. -/
def State.coreAtSite (s : State) (site : Nat) : Option Nat :=
  ((List.range 6).map (fun i => site / 7 * 6 + i)).find? (fun c => s.siteOf c == site)

/-- The spare site of a row. -/
def State.spareSite (s : State) (row : Nat) : Nat := 7 * row + bits (s.coreMap.getD row 0).toNat 18 3

/-- Swap a core's column with its row's spare column. -/
def remapWord (w : Word) (pos : Nat) : Word :=
  let a := bits w.toNat (3 * pos) 3
  let b := bits w.toNat 18 3
  BitVec.ofNat 32 (w.toNat - a * 2 ^ (3 * pos) - b * 2 ^ 18 + b * 2 ^ (3 * pos) + a * 2 ^ 18)

/-- Move a logical core to its row's spare in the ledger's remap and in CORE_MAP, with the failed site marked (R591, R650). -/
def State.remapCore (s : State) (c : Nat) : State :=
  let row := coreRow c
  let m := s.coreMap.set row (remapWord (s.coreMap.getD row 0) (c % 6))
  { s with coreMap := m }.ledgerNow (fun l => { l with coreMap := m })

/-- A site that failed its self-test or group B (R650). -/
def State.failSite (s : State) (failed : List Nat) (site : Nat) : State :=
  let s1 := (s.ledgerNow (fun l => { l with failedSites := (l.failedSites ++ [site]).eraseDups })).signature 5 Cause.bistFail
    (s.coreAtSite site) 1 [site] none (0, 0)
  match s.coreAtSite site with
  | none => s1
  | some c =>
    let sp := s.spareSite (site / 7)
    if failed.contains sp ∨ s.flash.ledger.failedSites.contains sp then
      (s1.markHealth c 6 2).faultEvent Cause.chipRetire none none 0 { core := some c }
    else s1.remapCore c

/-- A field repair takes a spare row of its bank: reads come from it (R87). -/
def Spad.repairRow (sp : Spad) (bank row : Nat) : Spad :=
  { sp with spares := Table.put 8 sp.spares bank (Table.look 8 sp.spares bank - 1),
            maps := sp.maps ++ [{ bank := bank, row := row, copied := 8, active := true }] }

/-- A row repair at a site (site, bank, row): a repair of the ledger is loaded, and a pending or newly failed row is repaired and
recorded (R86, R88, R648). In a bank without a free spare the row stays, and its core becomes RETIRING (R89). -/
def State.applyRow (s : State) (fresh : Bool) (e : Nat × Nat × Nat) : State :=
  let note (s : State) : State :=
    if fresh then
      (s.ledgerNow (fun l => { l with rowsApplied := l.rowsApplied ++ [e], rowsPending := l.rowsPending.filter (· != e) })).signature 8
        Cause.spadUe (s.coreAtSite e.1) 5 [e.2.1, e.2.2] none (0, 0)
    else s
  match s.coreAtSite e.1 with
  | none => note s
  | some c =>
    if Table.look 8 (s.core c).spad.spares e.2.1 = 0 then s.markHealth c 5 2
    else note (s.modCore c (fun k => { k with spad := k.spad.repairRow e.2.1 e.2.2 }))

/-- The repairs of phase 2 (R86, R88, R648): the spares that the fuses leave each bank, then the ledger's repairs, then its pending rows
and those that the self-test finds. -/
def State.applyRows (s : State) (r : PhaseReport) : State :=
  let old := s.flash.ledger.rowsApplied
  let todo := (s.flash.ledger.rowsPending ++ r.failedRows).eraseDups
  let s1 := s.each (List.range 24) (fun s c => s.modCore c (fun k => { k with spad := { k.spad with
    spares := (r.spares.filter (fun e => e.1 / 64 == s.siteOf c)).foldl (fun t e => Table.put 8 t (e.1 % 64) e.2) [] } }))
  (s1.each old (State.applyRow · false)).each todo (State.applyRow · true)

/-- Post-package repair of up to 4 pending rows of a stack (R651). -/
def State.repairStack (s : State) (k : Nat) : State :=
  let todo := (s.flash.ledger.hbmPending.filter (fun e => e.1 == k)).take 4
  if todo = [] then s
  else
    (s.ledgerNow (fun l => { l with
      hbmApplied := l.hbmApplied ++ todo, hbmPending := l.hbmPending.filter (fun e => !todo.contains e) })).each todo
      (fun s e => s.signature 8 Cause.hbmUe none 7 [e.1, e.2.2] none (0, 0))

/-- Train a stack: from the ledger's verified values when they fit, else in full (R656, R657). -/
def State.trainStack (s : State) (r : PhaseReport) (k : Nat) : State :=
  let t := r.hbmTemps.getD k 0
  let fit := match Table.look none s.flash.ledger.training k with
    | some (t0, true) => !s.flash.factory && decide ((t - t0).natAbs ≤ 20) && r.patternOk.getD k true
    | _ => false
  let s1 := s.modStack k (fun v => { v with temp := t.toNat, trained := fit || r.trainOk.getD k true, trainSrc := !fit, margin := 0 })
  if fit then s1
  else if r.trainOk.getD k true then
    s1.ledgerChange (fun l => { l with training := Table.put none l.training k (some (t, false)) })
  else s1.faultEvent Cause.chipRetire none none 0 {}

/-- The work of phase 2. -/
def State.phaseTwo (s : State) (r : PhaseReport) : State :=
  let s2 := (s.each r.failedSites (fun s x => s.failSite r.failedSites x)).applyRows r
  let s3 := if s2.integ.libValid then s2 else s2.faultEvent Cause.patternInvalid none none 0 {}
  let s4 := (s3.each [0, 1, 2, 3] State.repairStack).each [0, 1, 2, 3] (fun s k => s.trainStack r k)
  let s5 := s4.each r.hbmCe (fun s e => s.modStack e.1 (fun v => { v with
    ce := satAdd v.ce 1, pcCe := Table.upd 0 v.pcCe e.2 (fun w => satAdd w 1) }))
  { s5 with rst := { s5.rst with phase := 3, phase2Ms := (s.time.up - s.rst.phaseUp) / 1000000, phaseUp := s.time.up } }

/-! ## Phases 3 and 4 (R652, R653) -/

/-- The image that reached READY is ACTIVE, with no PENDING (R636). -/
def State.firmwareReady (s : State) : State :=
  let s1 := { s with flash := { s.flash with bootTries := 0, runningSince := s.time.up } }
  if s.flash.ledger.fwActive = s.flash.fwImage ∧ s.flash.ledger.fwPending.isNone then s1
  else s1.ledgerNow (fun l => { l with fwActive := s.flash.fwImage, fwPending := none })

/-- The events that bring-up queued go out, in the order in which they arose. -/
def State.sendQueued (s : State) : State :=
  { s with rst := { s.rst with queued := [] } }.each s.rst.queued (fun s e =>
    let fn := e.1 % 16
    let s1 := s.modFn fn (fun b => b.post { isEvent := true, words := e.2 })
    if fn = 0 ∧ towpathEvent (e.1 / 16) then s1.towpathCopy e.2 else s1)

/-- READY: the stored partition settings come back after the lockkeeper's own restarts (R631), a retirement restart is reported
(R591), queued events go out. -/
def State.becomeReady (s : State) : State :=
  let own := s.rst.kind == 2 && (s.rst.cause == 6 || s.rst.cause == 7 || s.rst.cause == 8)
  let s0 := if own then s.reapply else s
  let s1 := match s.rst.retired with
    | some c => if s.rst.cause = 7 then s0.firmwareReady.faultEvent Cause.coreRetire none none 0 { core := some c } else s0.firmwareReady
    | none => s0.firmwareReady
  let s2 := { s1 with
    rst := { s1.rst with
      phase := 4, ready := true, readyUp := s.time.up, readyTime := BitVec.ofNat 64 s.time.now, attempts := 0,
      totalMs := (s.time.up - s.rst.beganUp) / 1000000, retired := none },
    flash := { s1.flash with dredgeStart := s.time.up } }
  s2.sendQueued

/-- A phase of bring-up ends (R643). -/
def State.phaseEnd (s : State) (r : PhaseReport) : State :=
  if s.rst.porLow ∨ s.rst.perstLow ∨ s.rst.thermHold ∨ s.rst.railFault then s
  else if s.rst.quiesce.isSome then s.endQuiesce
  else if s.watchdogDue then s.warmReset .watchdog
  else if s.rst.ready ∨ s.rst.stop ≠ 0 then s
  else if s.rst.phase = 0 then { s with rst := { s.rst with phase := 1, phaseUp := s.time.up } }
  else if s.rst.phase = 1 then s.phaseOne r
  else if s.rst.phase = 2 then s.phaseTwo r
  else s.becomeReady

/-! ## Who may be asked -/

/-- Configuration requests draw CRS, or no answer at all (R654, R712). -/
def State.crs (s : State) : Bool :=
  s.rst.porLow || s.rst.perstLow || s.rst.railFault || (s.rst.kind != 2 && !s.rst.ready && s.rst.stop == 0 && !s.rst.thermHold)

/-! ## Function-level resets (R667) -/

/-- A command came from a function. -/
def Origin.isFn (o : Origin) (fn : Nat) : Bool := match o with | .ring f => f == fn | .tow _ => false

/-- A function's block takes its reset values and its commands are dropped without a reply. -/
def State.resetFn (s : State) (fn : Nat) : State :=
  { s.setFn fn {} with
    accepted := s.accepted.filter (fun c => !c.origin.isFn fn), waits := s.waits.filter (fun w => !w.cmd.origin.isFn fn) }

/-- A Function Level Reset of VF(p + 1) also kills and frees every job of partition p, whose streams end without records. -/
def State.flrVf (s : State) (fn : Nat) : State :=
  (s.resetFn fn).each (jobsOf (fn - 1)) (fun s j => s.killJob j none 0 {} true)

/-- VF Enable goes off: a Function Level Reset of every VF. -/
def State.vfOff (s : State) : State :=
  { s with vfEnable := false }.each ((List.range 12).map (· + 1)) State.flrVf

end Sys2Proof.Machine
end

