-- ==== Sys2Proof/Machine/BringUp.lean ====
section
/-! DEFINITION. Meanings of reset pins, bring-up, thermal and supply events and memory errors (18_bringup_and_reset.md,
19_management_power_maintenance.md R684, R685, 02 R51 and R86 to R89, 10 R372 and R373). -/

namespace Sys2Proof.Machine

/-! ## Pins and phases -/

/-- POR_N goes high: with PERST_N high a cold bring-up begins (R640, R641). -/
def execPorNDeassert (s : State) : Outcome :=
  if s.rst.porLow then .next { s with rst := { s.rst with porLow := false } }.pinsHigh else .next s

/-- PERST_N goes high: with POR_N high a host bring-up begins (R640, R641), in a thermal hold only once the chip is cool, and until
then it stays pending (R663). -/
def execPerstNDeassert (s : State) : Outcome :=
  if !s.rst.perstLow then .next s
  else
    let s1 := { s with rst := { s.rst with perstLow := false } }
    if s.rst.railFault then .next s1
    else if s.rst.thermHold ∧ !s.cool then .next { s1 with rst := { s1.rst with perstPend := true } }
    else .next s1.pinsHigh

/-- A reset pin goes low: every domain except the always-on one is held in reset, and POR_N resets that one too (R641, R668). A
thermal hold and a supply fault outlast PERST_N (R663, R712). -/
def execResetPinAssert (pin : ResetPin) (s : State) : Outcome :=
  match pin with
  | .por =>
    let s1 := s.cleared false
    .next { s1 with rst := { s1.rst with porLow := true, coldPend := true }, jtag := {} }
  | .perst =>
    if s.rst.perstLow then .next s
    else if s.rst.thermHold ∨ s.rst.railFault then .next { s with rst := { s.rst with perstLow := true } }
    else
      let s1 := s.cleared false
      .next { s1 with rst := { s1.rst with perstLow := true } }

/-- A phase of bring-up, or a quiesce, ends (R643, R658). -/
def execBringupPhaseEnd (r : PhaseReport) (s : State) : Outcome := .next (s.phaseEnd r)

/-- The anti-rollback fuses rise to the SVN of an image that has run for 10 minutes (R636). -/
def execFwSvnRaise (s : State) : Outcome :=
  match s.flash.image s.flash.fwImage with
  | none => .next s
  | some v =>
    if s.rst.ready ∧ s.flash.runningSince + 600000000000 ≤ s.time.up ∧ s.flash.svn < v.svn then
      .next { s with flash := { s.flash with svn := v.svn } }
    else .next s

/-- The lockkeeper's watchdog expires: the chip fences, and takes the warm reset 1 ms later (R662). -/
def execWatchdogExpiry (s : State) : Outcome :=
  if s.rst.porLow ∨ s.rst.perstLow ∨ s.rst.thermHold ∨ s.rst.railFault ∨ s.rst.quiesce.isSome then .next s
  else if s.rst.ready ∨ s.rst.stop ≠ 0 then
    let s1 := s.fence
    .next { s1 with rst := { s1.rst with watchdogAt := some (s.rst.watchdogAt.getD s.time.up) } }
  else .next (s.warmReset .watchdog)

/-! ## Temperature and supplies -/

/-- The highest reading with its sensor. -/
def hottest (ts : List Int) : Int × Nat :=
  ((List.range ts.length).zip ts).foldl (fun (a : Int × Nat) e => if a.1 < e.2 then (e.2, e.1) else a) (ts.headD 0, 0)

/-- Tj in 8 bits. -/
def tjByte (t : Int) : Word := BitVec.ofNat 32 (BitVec.ofInt 8 t).toNat

/-- The sensors are sampled (R684): Tj, the warning of R685, the runs of samples at 112 °C, the cool time of R663. Readings past the
32 sensors are those of the HBM stacks. -/
def State.sample (s : State) (readings : List Int) (avgW : Nat) : State :=
  let ts := readings.take 32
  let h := hottest ts
  let hot := (List.range ts.length).foldl (fun t i => if 112 ≤ ts.getD i 0 then Table.upd 0 t i (· + 1) else Table.put 0 t i 0) s.mgmt.hot
  let cool := ts.all (fun t => decide (t < 95))
  let hbm := readings.drop 32
  let s1 := { s.each (List.range (min 4 hbm.length)) (fun s k => s.modStack k (fun v => { v with temp := (hbm.getD k 0).toNat })) with
    mgmt := { s.mgmt with sensors := ts, tj := h.1, sensor := h.2, hot := hot, peak := max s.mgmt.peak h.1,
                          avgW := avgW, peakW := max s.mgmt.peakW avgW },
    rst := { s.rst with coolSince := if cool then some (s.rst.coolSince.getD s.time.up) else none } }
  if 100 ≤ h.1 ∧ !s.mgmt.warn then
    { s1 with mgmt := { s1.mgmt with warn := true, warnings := satAdd s1.mgmt.warnings 1 } }.event Ev.thermal none none 1 h.2 [tjByte h.1]
  else if h.1 < 97 ∧ s.mgmt.warn then
    { s1 with mgmt := { s1.mgmt with warn := false } }.event Ev.thermal none none 2 h.2 [tjByte h.1]
  else s1

/-- A temperature sample; a PERST_N that waits in a thermal hold takes effect once the chip is cool. -/
def execTempSample (readings : List Int) (avgW : Nat) (s : State) : Outcome :=
  let s1 := s.sample readings avgW
  if s1.rst.thermHold ∧ s1.rst.perstPend ∧ s1.cool then .next s1.pinsHigh else .next s1

/-- A sensor has read 112 °C or above in 3 consecutive samples: THERMTRIP_N, and a warm reset with hold (R663, R685). -/
def execThermalTrip (s : State) : Outcome :=
  if s.mgmt.thermtrip ∨ !s.mgmt.hot.any (fun e => decide (3 ≤ e.2)) ∨ s.rst.porLow ∨ s.rst.perstLow ∨ s.rst.railFault then .next s
  else
    let s1 := { s with mgmt := { s.mgmt with tripped := true, thermtrip := true } }
    let s2 := if s.rst.ready then s1.event Ev.thermal none none 3 s.mgmt.sensor [tjByte s.mgmt.tj] else s1
    if s.rst.ready ∨ s.rst.stop ≠ 0 ∨ s.rst.quiesce.isSome then .next (s2.warmReset .thermal) else .next s2.endQuiesce

/-- A rail leaves its range for 2 µs: the chip fences, and every domain but the always-on one is held in reset until POR_N
(R712). -/
def execRailOutOfRange (_rail : Fin 8) (s : State) : Outcome :=
  if s.rst.porLow ∨ s.rst.railFault then .next s
  else
    let s1 := s.fence.cleared true
    .next { s1 with rst := { s1.rst with railFault := true } }

/-! ## Functions -/

/-- A Function Level Reset (R667); of PF0 it also clears VF Enable. -/
def execFunctionLevelReset (fn : Fin 13) (s : State) : Outcome :=
  if s.crs then .next s
  else if fn.val = 0 then .next (s.resetFn 0).vfOff
  else .next (s.flrVf fn)

/-- PF0's NumVFs and VF Enable are written (R733). In maintenance-only mode NumVFs stays 0 (R655); NumVFs does not change while the
VFs are enabled. -/
def execVfEnable (numVfs : Nat) (enable : Bool) (s : State) : Outcome :=
  if s.crs ∨ s.rst.stop ≠ 0 then .next s
  else if s.vfEnable then (if enable then .next s else .next s.vfOff)
  else if numVfs = 0 ∨ numVfs = 12 then .next { s with numVfs := numVfs, vfEnable := enable && numVfs == 12 }
  else .next s

/-! ## Scratchpad errors (R51, R86 to R89) -/

/-- One maintenance cycle: the scrub moves on, and each map-out copies one of its 8 words; a copied row is read from its spare
and recorded. -/
def execMaintenanceCycle (core : Fin 24) (corrected : List (Nat × Nat)) (s : State) : Outcome :=
  let sp := ((s.core core).spad).corrected s.time.up corrected
  let maps := sp.maps.map (fun m => if m.active then m else { m with copied := m.copied + 1, active := m.copied + 1 == 8 })
  let done := (sp.maps.zip maps).filterMap (fun e => if e.2.active && !e.1.active then some e.2 else none)
  let s1 := s.modCore core (fun k => { k with spad := { sp with maps := maps, scrub := (sp.scrub + 1) % 8192 } })
  .next (s1.each done (fun s m =>
    (s.ledgerNow (fun l => { l with rowsApplied := l.rowsApplied ++ [(s.siteOf core, m.bank, m.row)] })).signature 8 Cause.spadUe
      (some core.val) 5 [m.bank, m.row] none (0, 0)))

/-- An array row with 3 corrected errors in 24 h is mapped out (R87); without a free spare the core becomes RETIRING (R89). -/
def execRowMapOut (core : Fin 24) (bank : Fin 64) (row : Nat) (s : State) : Outcome :=
  let sp := (s.core core).spad
  let times := (Table.look [] sp.rowCe (bank * 1024 + row)).filter (fun t => decide (s.time.up < t + dayNs))
  if times.length < 3 ∨ sp.maps.any (fun m => m.bank == bank.val && m.row == row) then .next s
  else
    let free := Table.look 8 sp.spares bank
    if free = 0 then .next (s.markHealth core 5 2)
    else .next (s.modCore core (fun k => { k with spad := { k.spad with
      spares := Table.put 8 k.spad.spares bank (free - 1), maps := k.spad.maps ++ [{ bank := bank, row := row }] } }))

/-- Defer a warm reset (R373, R661). -/
def State.deferReset (s : State) (c : WarmCause) : State :=
  { s with rst := { s.rst with deferred := some (s.rst.deferred.getD c) } }

/-- An uncorrectable scratchpad error in a bank, or in the tag array (bank 64), which has no spare rows: the row is a pending repair, and the chip takes a warm reset (R88), unless it alone holds
the pair's streams: then the job whose state held the word is killed (R661). -/
def execSpadUe (core : Fin 24) (bank : Fin 65) (row : Nat) (job : Option (Fin 96)) (s : State) : Outcome :=
  let s1 := if bank.val = 64 then s
    else s.ledgerNow (fun l => { l with rowsPending := (l.rowsPending ++ [(s.siteOf core, bank.val, row)]).eraseDups })
  if s.aloneWithStreams then
    let a : FaultAt := { core := some core }
    match job with
    | some j =>
      if (s.job j).state = .free then .next ((s1.faultEvent Cause.spadUe (some (partOfCore core)) none 0 a).deferReset .spadUe)
      else .next ((s1.killJob j (some Cause.spadUe) 0 a false).deferReset .spadUe)
    | none => .next ((s1.faultEvent Cause.spadUe (some (partOfCore core)) none 0 a).deferReset .spadUe)
  else .next ((s1.signature 7 Cause.spadUe (some core.val) 5 [bank.val, row] none (0, 0)).warmReset .spadUe)

/-! ## HBM errors (R372, R373) -/

/-- The streams whose mirrored state lies in the barge of a device address of the mirror area (R373, R430): the 64 of a barge of the stream
table, the one of a relay, state or summary slot, those of a job's records. -/
def State.mirrorIndices (s : State) (addr : Nat) : List Nat :=
  if addr < 0x10000 then []
  else if addr < 0x20000 then (List.range 64).map (· + (addr - 0x10000) / 4096 * 64)
  else if 0x400000 ≤ addr ∧ addr < 0x1000000 then
    (s.pair.mirror.filter (fun e => match e.2.stream with
      | some st => st.adm.job == (addr - 0x400000) / 0x20000 | none => false)).map (·.1)
  else if addr < 0x1000000 then []
  else if addr < 0x11000000 then [(addr - 0x1000000) / 0x40000]
  else if addr < 0x51000000 then [(addr - 0x11000000) / 0x100000]
  else if addr < 0x3D1000000 then [(addr - 0x51000000) / 0xE00000]
  else []

/-- An uncorrectable HBM error: its address and row are recorded, and the chip takes a warm reset, unless it alone holds the pair's
streams: then the job that read, or the streams whose mirror lies there during a restore, are lost. -/
def execHbmUe (addr : Nat) (job : Option (Fin 96)) (s : State) : Outcome :=
  let n := addr / 4096
  let k := stackOf n
  let s1 := (s.modStack k (fun v => { v with ueAddr := BitVec.ofNat 64 addr })).ledgerNow (fun l =>
    { l with hbmPending := (l.hbmPending ++ [(k, pcOf addr, n / 4)]).eraseDups })
  if s.aloneWithStreams then
    let hit : Option Nat := match job with
      | some j => if (s.job j).state = .free then none else some j.val
      | none => none
    match hit with
    | some j => .next ((s1.killJob j (some Cause.hbmUe) 0 {} false).deferReset .hbmUe)
    | none =>
      let s2 := if s.pair.restoreAt.isSome then s1.each (s.mirrorIndices addr) State.loseStream else s1
      .next ((s2.faultEvent Cause.hbmUe none none 0 {}).deferReset .hbmUe)
  else .next ((s1.signature 7 Cause.hbmUe none 7 [k, n / 4] (job.map (·.val)) (0, 0)).warmReset .hbmUe)

end Sys2Proof.Machine
end

