-- ==== Sys2Proof/Machine/HostOps.lean ====
section
/-! DEFINITION. The host interface's registers (14_streams_and_host.md): what decodes (R654, R660), the function block (R510,
R731, R732), MSI-X and configuration space (R733), stream slots (R740), command time limits (R559). -/

namespace Sys2Proof.Machine

/-! ## What decodes -/

/-- Host writes to BAR registers act: the chip is READY or in maintenance-only mode, and no quiesce has begun (R654, R655, R660). -/
def State.barOpen (s : State) : Bool := (s.rst.ready || s.rst.stop == 1) && s.rst.quiesce.isNone && !s.rst.railFault

/-- A function that is enumerated (R733). -/
def State.enumerated (s : State) (fn : Nat) : Bool := fn == 0 || s.vfEnable

/-- Answer a memory read: the value while the BAR works, 0 during a warm reset or a stop, an Unsupported Request while nothing
decodes (R654, R660). -/
def State.answerRead (s : State) (fn : Nat) (v : DWord) : State :=
  if s.crs || !s.enumerated fn then s.emit (.unsupported fn) else s.emit (.readData fn (if s.barOpen then v else 0))

/-! ## The function block -/

/-- Count an ignored doorbell or slot write (R519, R732, R740). -/
def State.stray (s : State) (fn : Nat) : State := s.modFn fn (fun f => { f with stray := satAdd f.stray 1 })

/-- A LOG2_ENTRIES value is legal. -/
def log2Ok (w : Word) : Bool := decide (4 ≤ bits w.toNat 0 4) && decide (bits w.toNat 0 4 ≤ 12)

/-- A write of SQ_CFG: the size only while the ring is disabled (R510); enabling starts the ring afresh (R731). -/
def FnBlock.setSqCfg (f : FnBlock) (w : Word) : FnBlock :=
  if !log2Ok w then f
  else
    let en := bitAt w.toNat 31
    let f1 : FnBlock := if f.sqEn then f else { f with sqLog2 := BitVec.ofNat 4 w.toNat }
    if en && !f.sqEn then { f1 with sqEn := true, sqHead := 0, sqTail := 0, unread := [] } else { f1 with sqEn := en }

/-- A write of CQ_CFG. -/
def FnBlock.setCqCfg (f : FnBlock) (w : Word) : FnBlock :=
  if !log2Ok w then f
  else
    let en := bitAt w.toNat 31
    let f1 : FnBlock := if f.cqEn then f else { f with cqLog2 := BitVec.ofNat 4 w.toNat }
    if en && !f.cqEn then { f1 with cqEn := true, cqHead := 0, cqNext := 0, cqPhase := true } else { f1 with cqEn := en }

/-- Replace the low or the high word of a ring base; bits [11:0] of the low word are not stored. -/
def baseLo (b : DWord) (w : Word) : DWord := BitVec.ofNat 64 (b.toNat / 2 ^ 32 * 2 ^ 32 + w.toNat / 4096 * 4096)
def baseHi (b : DWord) (w : Word) : DWord := BitVec.ofNat 64 (b.toNat % 2 ^ 32 + w.toNat * 2 ^ 32)

/-- A write of one function block register that has no row of its own (R6, R14, R510). -/
def FnBlock.write32 (f : FnBlock) (fn offset : Nat) (window : Bool) (w : Word) : FnBlock :=
  match offset with
  | 0x08 => if f.sqEn then f else { f with sqBase := baseLo f.sqBase w }
  | 0x0C => if f.sqEn then f else { f with sqBase := baseHi f.sqBase w }
  | 0x10 => f.setSqCfg w
  | 0x20 => if f.cqEn then f else { f with cqBase := baseLo f.cqBase w }
  | 0x24 => if f.cqEn then f else { f with cqBase := baseHi f.cqBase w }
  | 0x28 => f.setCqCfg w
  | 0x40 => if fn = 0 ∧ window ∧ bits w.toNat 0 7 ≤ 95 then { f with baseGib := BitVec.ofNat 7 w.toNat } else f
  | _ => f

/-! ## Replies that a ring makes visible -/

/-- A warm reset that a reply carries begins once the reply is visible in its ring (R552). -/
def State.afterReplies (s : State) : State :=
  match s.rst.afterReply with
  | none => s
  | some (o, seq, cause) =>
    if decide (o < 13) && (s.fn o).waiting.any (fun i => !i.isEvent && i.words.getD 1 0 == seq) then s
    else { s with rst := { s.rst with afterReply := none } }.warmReset cause

/-- The rings of a function go on: replies and events are written, entries read, a reset that waited begins. -/
def State.serveRings (s : State) (fn : Nat) : State :=
  let s1 := s.drainCq fn
  (s1.readRing fn (s1.fn fn).unread.length).afterReplies

/-! ## Stream slots -/

/-- The stream that a slot of a function shows (R740). -/
def State.slot (s : State) (fn i : Nat) : Option Stream :=
  match s.stream i with
  | some st => if fn = 0 ∨ fn = partOfJob st.adm.job + 1 then some st else none
  | none => none


/-- An intake doorbell (R519). -/
def State.intakeDoorbell (s : State) (fn i : Nat) (w : Word) : State :=
  if bits w.toNat 16 16 ≠ 0 then s
  else
    match s.slot fn i with
    | none => s.stray fn
    | some st =>
      let c := w.toNat
      if st.adm.source ≠ .host then s.stray fn
      else if st.queued.any (fun q => q.seq == c) then s
      else if 2 < (c + 65536 - st.nextSeq) % 65536 then
        (s.modStream i (fun (v : Stream) => { v with refused := satAdd v.refused 1 })).stray fn
      else
        let q : Chunk := { seq := c, arrived := s.time.now, inBerth := false, endMark := false, valid := 0, tag := 0, bad := 0 }
        s.modStream i (fun (v : Stream) => { v with queued := v.queued ++ [q] })

/-- A result doorbell (R526). DESIGN CHOICE (log 142): R14 and R526 do not say what a HEAD at or above the ring's size does; it counts
modulo that size. -/
def State.resultDoorbell (s : State) (fn i : Nat) (w : Word) : State :=
  if bits w.toNat 6 26 ≠ 0 then s
  else
    match s.slot fn i with
    | none => s.stray fn
    | some st => s.modStream i (fun v => { v with resHead := w.toNat % 2 ^ st.adm.resultLog2 })

/-! ## Configuration space and MSI-X (R733) -/

/-- A configuration word as it reads. -/
def State.configWord (s : State) (fn n : Nat) : Word := Config.configReset fn n ^^^ Table.look 0 s.config (fn * 1024 + n)

/-- A configuration write; the MSI-X control word turns a function's vectors on and masks them. -/
def State.writeConfig (s : State) (fn n : Nat) (w : Word) : State :=
  if n = Config.msixCap / 4 then
    { s with msixOn := Table.put false s.msixOn fn (bitAt w.toNat 31),
             msixHold := Table.put false s.msixHold fn (bitAt w.toNat 30) }.msixRelease fn
  else
    let m := Config.configMask fn n
    let v := (s.configWord fn n &&& ~~~m) ||| (w &&& m)
    { s with config := Table.put 0 s.config (fn * 1024 + n) (v ^^^ Config.configReset fn n) }

/-- A write into the MSI-X table. -/
def State.writeMsix (s : State) (fn n : Nat) (w : Word) : State :=
  { s with msixRam := Table.put 0 s.msixRam (fn * 256 + n) (if n % 4 = 3 then w ^^^ 1 else w) }.msixRelease fn

/-- The submission doorbell (R511, R732): the new entries, as DMA reads them, are taken in ring order. -/
def State.sqDoorbell (s : State) (fn : Nat) (w : Word) (entries : List SqEntry) : State :=
  let f := s.fn fn
  let size := 2 ^ f.sqLog2.toNat
  if bits w.toNat 12 20 ≠ 0 then s
  else if !f.sqEn ∨ size ≤ w.toNat then s.stray fn
  else
    let n := (w.toNat + size - f.sqTail) % size
    let blank : SqEntry := { words := List.replicate 16 0, payload := [] }
    let new := (List.range n).map (fun i => entries.getD i blank)
    (s.setFn fn { f with sqTail := w.toNat, unread := f.unread ++ new }).serveRings fn

/-- The completion doorbell (R512, R732). -/
def State.cqDoorbell (s : State) (fn : Nat) (w : Word) : State :=
  let f := s.fn fn
  if bits w.toNat 12 20 ≠ 0 then s
  else if !f.cqEn ∨ 2 ^ f.cqLog2.toNat ≤ w.toNat then s.stray fn
  else (s.setFn fn { f with cqHead := w.toNat }).serveRings fn

/-- A 32-bit write of a BAR0 register; `entries` are what DMA reads when it is the submission doorbell. -/
def State.writeBar0 (s : State) (fn offset : Nat) (w : Word) (entries : List SqEntry) : State :=
  if offset = 0x14 then s.sqDoorbell fn w entries
  else if offset = 0x2C then s.cqDoorbell fn w
  else if 0xF000 ≤ offset ∧ offset < 0xF400 then s.writeMsix fn ((offset - 0xF000) / 4) w
  else if fn = 0 ∧ 0x4000 ≤ offset ∧ offset < 0x7000 ∧ (offset - 0x4000) % 0x200 = 0x1A0 then
    s.modCore ((offset - 0x4000) / 0x200) (fun c => { c with lockSel := BitVec.ofNat 8 w.toNat })
  else
    let s1 := s.modFn fn (fun f => f.write32 fn offset (!bitAt s.flash.sealFuses 3) w)
    if offset = 0x10 ∨ offset = 0x28 then s1.serveRings fn else s1

/-- A 32-bit write in BAR2: the slot's doorbells, and a stray where the slot shows no stream. -/
def State.writeBar2 (s : State) (fn offset : Nat) (w : Word) : State :=
  let i := offset / 64
  if offset % 64 = 0 then s.intakeDoorbell fn i w
  else if offset % 64 = 8 then s.resultDoorbell fn i w
  else if (s.slot fn i).isSome then s else s.stray fn

/-- A 32-bit write of a BAR. -/
def State.write32 (s : State) (fn bar offset : Nat) (w : Word) (entries : List SqEntry) : State :=
  if 65536 ≤ offset then s
  else if bar = 0 then s.writeBar0 fn offset w entries
  else if bar = 2 then s.writeBar2 fn offset w
  else s

/-! ## Time limits -/

/-- The reply time of a command in nanoseconds, where R558 states one. -/
def Cmd.limit (c : Cmd) : Option Nat :=
  match c.opcode with
  | 0x0104 => some 10000000
  | 0x0203 => some 1000000000
  | 0x0401 => some 120000000000
  | 0x0602 => some 2000000000
  | 0x0611 => some 500000000
  | 0x0705 => some 100000000
  | 0x0706 => some 60000000000
  | 0x0801 => some 60000000000
  | 0x0803 => some 1000000000
  | 0x0804 => some 1000000000
  | 0x0805 => if c.action = 1 then some 10000000 else none
  | _ => none

/-- A command whose stated time has passed. -/
def State.late (s : State) (c : Cmd) : Bool :=
  match c.limit with
  | some n => decide (c.readAt + n < s.time.up)
  | none => false

/-- A command of a mailbox with a given SEQ. -/
def Cmd.isOf (c : Cmd) (mailbox : Nat) (seq : Word) : Bool := c.origin.code == mailbox && c.seq == seq

/-- A command's towpath data is no longer awaited. -/
def State.dropData (s : State) (c : Cmd) : State :=
  match c.origin with
  | .ring _ => s
  | .tow e => { s with mgmt := s.mgmt.modEp e (fun p => { p with dataIn := p.dataIn.filter (fun d => d.seq != c.seq) }) }

end Sys2Proof.Machine
end

