-- ==== Sys2Proof/Machine/MaintOps.lean ====
section
/-! DEFINITION. Maintenance activities (19_management_power_maintenance.md R687 to R697): identifiers, conflicts, who starts and who
waits, levels, affected partitions.  An ID is kind × 256 + target. -/

namespace Sys2Proof.Machine

/-- A SCAN of group B, and a DIGEST reload. -/
def actGroupB (id : Nat) : Bool := actKind id == 1 && decide (0x80 ≤ actTarget id)
def actIsReload (id : Nat) : Bool := id == actReload

/-- Activities that need a handover (R687). -/
def actHandover (id : Nat) : Bool := actGroupB id || actIsReload id || actKind id == 8 || actKind id == 10

/-- The conflict matrix of R688 with the lower kind first. -/
def conflictOrdered (a b : Nat) : Bool :=
  match actKind a, actKind b with
  | _, 10 => true
  | 1, 2 => actTarget a % 128 == actTarget b
  | 1, 5 => b == actPattern
  | 1, 6 => actGroupB a || actIsReload b
  | 1, 7 => actGroupB a
  | 1, 8 => actGroupB a
  | 5, 5 => true
  | 6, 7 => actIsReload a
  | 6, 8 => true
  | 7, 8 => true
  | 7, 9 => decide (32 ≤ actTarget b)
  | 8, 8 => true
  | _, _ => false

/-- Whether two activities conflict. A request for the same target joins the running one where the matrix has J. -/
def conflicts (a b : Nat) : Bool := if actKind a ≤ actKind b then conflictOrdered a b else conflictOrdered b a

/-- Activities that stand in the way of a host command: they run, or the host started them (R689, R690). -/
def Activity.holds (a : Activity) : Bool :=
  a.phase == .running || a.phase == .suspended || (a.byHost && a.phase == .granted)

/-- The lowest ID among the activities that a host command's test finds in its way. -/
def State.busyWith (s : State) (f : Nat → Bool) : Option Nat :=
  (s.mgmt.acts.find? (fun e => e.2.holds && f e.1)).map (·.1)

/-- Firmware activities that have been granted and have not begun give way (R550, R690). -/
def State.withdraw (s : State) (f : Nat → Bool) : State :=
  { s with mgmt := { s.mgmt with acts := Table.mapV {} s.mgmt.acts (fun id a =>
      if a.phase == .granted && !a.byHost && f id then { a with phase := .pending } else a) } }

/-- Times in nanoseconds after which an activity falls due. -/
def minuteNs : Nat := 60000000000
def secondNs : Nat := 1000000000
def weekNs : Nat := 7 * dayNs

/-- The host starts an activity, or joins the one that runs for the same target. -/
def State.hostStart (s : State) (id : Nat) : State :=
  s.modAct id (fun a => if a.phase = .running then a else
    { a with phase := .running, byHost := true, release := if a.phase = .idle then s.time.up else a.release, steps := 0 })

/-- An activity's release (R687): P is now, D as given. A requested activity that already stands is left as it is. -/
def State.release_ (s : State) (id : Nat) (due : Option Nat) : State :=
  s.modAct id (fun a => if a.phase = .idle then
    { phase := .pending, release := s.time.up, due := due.map (s.time.up + ·) } else a)

/-- `EVT_MAINT_ESCALATE` (R561, R697). -/
def State.escalate (s : State) (id status : Nat) : State :=
  let d := (s.act id).due.getD 0
  s.event Ev.maintEscalate none none status id [lo32 d, hi32 d]

/-- An activity is done (R697): an escalated one says so. -/
def State.endAct (s : State) (id : Nat) : State :=
  let s1 := if (s.act id).escalated then s.escalate id 3 else s
  s1.modAct id (fun _ => {})

/-- The partitions whose flows use a link. -/
def State.flowsOn (s : State) (l : Nat) : List Nat :=
  (List.range 12).filter (fun p => (s.live p).any (fun j => (s.job j).image.elcorMin.any (fun e => e.1 == l)))

/-- The affected partitions (R695). -/
def State.affected (s : State) (id : Nat) : List Nat :=
  match actKind id with
  | 1 => [actTarget id % 128 / 2]
  | 2 => [actTarget id / 2]
  | 6 => (s.loaded.map (·.part)).eraseDups
  | 7 => List.range 12
  | 8 => List.range 12
  | 9 => if actTarget id < 32 then s.flowsOn (actTarget id) else []
  | 10 => List.range 12
  | _ => []

/-- The lowest activity at the forced level that affects a partition (R696). -/
def State.forcedOn (s : State) (p : Nat) : Option Nat :=
  (s.mgmt.acts.find? (fun e => e.2.phase != .idle && e.2.level == 2 && (s.affected e.1).contains p)).map (·.1)

/-- The level of an activity by time (R693): urgent from P + 0.75 × (D − P), forced from D. -/
def Activity.levelAt (a : Activity) (up : Nat) : Nat :=
  match a.due with
  | none => 0
  | some d => if d ≤ up then 2 else if 4 * a.release + 3 * (d - a.release) ≤ 4 * up then 1 else 0

end Sys2Proof.Machine
end

