-- ==== Sys2Proof/Machine/StreamOps.lean ====
section
/-! DEFINITION. Streams (14_streams_and_host.md): handles (R513 to R515), admission (R517), the row table (R231), intake entries and
their relay (R427, R520 to R522). -/

namespace Sys2Proof.Machine

/-! ## The row table (R228, R231) -/

/-- Row table states. -/
def rowFreeSt : Nat := 0
def rowLive : Nat := 1
def rowPaused : Nat := 2

/-- The END_STEP of a stream that does not end. -/
def noEnd : Nat := 0x3FF

/-- Write a row table entry, whole or by its fields. -/
def State.setRowWord (s : State) (j row w : Nat) : State :=
  let pl := (s.job j).image.places
  s.modCore (placeCore j pl) (fun c => { c with spad := writePound c.spad pl.pound (pl.rowTable + 4 * row) (leBytes 4 w) })
def State.setRow (s : State) (j row st start end_ : Nat) : State := s.setRowWord j row (st * 2 ^ 30 + start * 2 ^ 10 + end_)


/-- Write END_STEP alone. -/
def State.setRowEnd (s : State) (j row end_ : Nat) : State :=
  let w := s.rowEntry j row
  s.setRow j row (bits w 30 2) (bits w 10 10) end_

/-! ## Strides and steps (R518, R520, R529) -/


/-- A 64-byte header and a body, rounded up to 64 bytes. -/
def entryStride (body : Nat) : Nat := (64 + body + 63) / 64 * 64
/-- Samples of a step. -/
def StreamShape.perStep (h : StreamShape) : Nat := h.n / h.steps
/-- START_STEP of a first sample. -/
def StreamShape.startStep (h : StreamShape) (sample : Nat) : Nat := sample / h.perStep
/-- END_STEP of a close. -/
def StreamShape.endStep (h : StreamShape) (sample : Nat) : Nat :=
  if sample = 0 then noEnd else (sample + h.perStep - 1) / h.perStep - 1

/-! ## Handles -/

/-- The plane whose half of the indices the chip allocates from (R513). -/
def State.indexPlane (s : State) : Nat := if s.pair.asSpare then 1 - s.pair.twinChip % 2 else s.plane
/-- The pair ID of the handles it allocates. -/
def State.handlePair (s : State) : Nat := if s.pair.asSpare then s.pair.twinChip / 2 else s.time.chip / 2

/-- The lowest free index of the chip's half. -/
def State.freeIndex (s : State) : Option Nat :=
  ((List.range 512).map (512 * s.indexPlane + ·)).find? (fun i => (s.stream i).isNone)

/-- The generation that the next handle of an index carries. -/
def State.nextGen (s : State) (i : Nat) : Nat := (Table.look 0 s.gens i + 1) % 64

/-- A handle. -/
def handleOf (pair index gen : Nat) : Word := pack [(pair % 65536, 16), (index % 1024, 6), (gen % 64, 0)]

/-- A pair ID that a command may name (R515). -/
def State.knownPair (s : State) (h : Nat) : Bool :=
  h / 65536 == s.time.chip / 2 || (s.pair.spare && h / 65536 == s.pair.twinChip / 2)

/-- A stream that the twin carries while this chip is YIELDED. -/
def State.twinCarries (s : State) (h : Nat) : Bool :=
  s.pair.state == .yielded && (s.pair.kept.any (fun e => e.2.adm.handle.toNat == h) || s.pair.mirror.any (fun e =>
    e.2.valid && (match e.2.stream with | some st => st.adm.handle.toNat == h | none => false)))

/-- Run a stream command on the stream that P0 names, with its index, or refuse it (R515). -/
def State.withStream (s : State) (c : Cmd) (f : Nat → Stream → Verdict) : Verdict :=
  let h := c.p 0
  if s.twinCarries h then .no St.takenOver s.pair.twinChip
  else if !s.knownPair h then .no St.badParam 8
  else match s.openHandle h with
    | some st => f (handleIndex h) st
    | none => .no St.badParam 8

/-! ## Admission (R517) -/

/-- The rows of a cohort that no stream of the chip's own holds. -/
def State.freeRows (s : State) (j k : Nat) : List Nat :=
  let b := s.job j
  let spec := b.image.cohorts.getD k default
  let taken := (OTable.entries s.streams).filterMap (fun e =>
    if e.2.adm.job = j ∧ e.2.adm.cohort < b.own then some e.2.adm.row else none)
  ((List.range spec.rows).map (spec.row0 + ·)).filter (fun r => !taken.contains r)

/-- Host-fed streams of a cohort. -/
def State.hosted (s : State) (j k : Nat) : Nat :=
  (OTable.entries s.streams).countP (fun e => e.2.adm.job == j && e.2.adm.cohort == k && e.2.adm.source == .host)

/-- A cohort has room for one more host intake within its budget. -/
def State.hostRoom (s : State) (j k : Nat) : Bool :=
  decide ((s.hosted j k + 1) * (s.job j).image.shape.intakeBytes ≤ ((s.job j).image.cohorts.getD k default).hostBudget)

/-- The cohort and row of a new stream: most FREE rows, then the lowest cohort, then the lowest row. -/
def State.place (s : State) (j : Nat) (host : Bool) : Option (Nat × Nat) :=
  let cands := (List.range (s.job j).own).filterMap (fun k =>
    match s.freeRows j k with
    | [] => none
    | r :: rs => if host && !s.hostRoom j k then none else some (k, r, rs.length))
  (cands.foldl (fun (a : Option (Nat × Nat × Nat)) c =>
    match a with
    | none => some c
    | some b => if b.2.2 < c.2.2 then some c else some b) none).map (fun b => (b.1, b.2.1))

/-- Where a STREAM_OPEN is placed: link-fed streams in the row that the packet names (R727). -/
def State.placeFor (s : State) (c : Cmd) : Option (Nat × Nat) :=
  let img := (s.job c.job).image
  if img.shape.linkFed then
    let k := c.f 2 16 6
    let r := c.f 2 0 10
    if (s.freeRows c.job k).contains r then some (k, r) else none
  else s.place c.job (!bitAt (c.p 0) 31)

/-- STREAM_OPEN's field checks (R516, R555, R727). -/
def State.openBad (s : State) (c : Cmd) : Option (Nat × Nat) :=
  let b := s.job c.job
  let sh := b.image.shape
  let wharf := bitAt (c.p 0) 31
  let log2 := c.f 0 24 4
  let sized (n : Nat) : Bool := decide (2 ≤ n) && decide (n ≤ 6)
  let aligned (n : Nat) : Bool := n % 4096 == 0
  firstBad ([req (b.state == .running) 3, c.stray [0x8FF0FFFF, 0x03FF003F],
    req (sized (c.f 0 20 4) && c.f 0 0 16 < sh.n) 8, req (c.f 1 16 10 ≤ 1000) 9, req (aligned (c.p 4)) 12] ++
    (if sh.linkFed then [req (!wharf && log2 == 0) 8, c.stray [0xFFFFFFFF, 0xFFFFFFFF, 0x003F03FF], req (c.p 3 == 0) 11]
     else if wharf then [req (log2 == 0) 8, req (c.p 2 == 0) 10, req (c.p 3 == 0) 11]
     else [req (sized log2) 8, req (aligned (c.p 2)) 10]))

/-- The stream that an accepted STREAM_OPEN will open: its row and index are held from then on (R545). -/
def State.newStream (s : State) (c : Cmd) (k row i : Nat) : Stream :=
  let sh := (s.job c.job).image.shape
  let fn := match c.origin with | .ring f => f | .tow _ => 0
  let src : Source := if sh.linkFed then .link else if bitAt (c.p 0) 31 then .wharf else .host
  let adm : Admission := {
    handle := handleOf s.handlePair i (s.nextGen i), fn := fn, job := c.job, cohort := k, row := row, source := src,
    startStep := sh.startStep (c.f 0 0 16), intakeBase := if src = .host then BitVec.ofNat 64 (c.addr 2) else 0,
    intakeLog2 := c.f 0 24 4, resultBase := BitVec.ofNat 64 (c.addr 4), resultLog2 := c.f 0 20 4, vector := c.f 1 0 6,
    gapLimit := if c.f 1 16 10 = 0 then 50 else c.f 1 16 10 }
  { adm := adm, state := .opening, planned := .live }

/-! ## Result words -/

/-- STREAM_OPEN's result words. -/
def State.openWords (s : State) (st : Stream) : List Word :=
  let b := s.job st.adm.job
  let sh := b.image.shape
  let t := s.nextBoundary b st.adm.cohort s.time.now
  [st.adm.handle, pack [(st.adm.cohort, 16), (st.adm.row, 0)],
    pack [(sh.periodMs % 256, 24), (sh.steps % 256, 16), (sh.n % 65536, 0)],
    BitVec.ofNat 32 (if st.adm.source = .host then entryStride sh.intakeBytes else 0), BitVec.ofNat 32 (entryStride sh.resultBytes),
    lo32 t, hi32 t]

/-- STREAM_QUERY's result words. -/
def State.queryWords (s : State) (st : Stream) : List Word :=
  let t := s.nextBoundary (s.job st.adm.job) st.adm.cohort s.time.now
  let w := match st.binding with | some b => (b.wharf, b.rxCount, b.txCount) | none => (15, 0, 0)
  [st.adm.handle, pack [(st.state.code, 30), (st.adm.fn, 24), (st.adm.cohort, 16), (st.adm.row, 0)],
    pack [(st.adm.job, 24), (st.nextSeq, 0)], pack [(st.lastSeq, 0)], lo32 t, hi32 t,
    pack [(st.gaps.toNat, 16), (st.refused.toNat, 0)],
    pack [(st.discarded.toNat, 16), (w.1, 12), (w.2.1, 6), (w.2.2, 0)]]

/-! ## Intake -/

/-- Relays go to the twin: the pair is MIRRORED, or the twin is YIELDED (R427, R455). -/
def State.relays (s : State) : Bool :=
  s.pair.state == .mirrored || (s.pair.state == .solo && s.pair.twinState == .yielded)

/-- The number of a cohort's chunk that its next boundary closes. -/
def Cohort.upcoming (h : Cohort) : Nat := (if h.bk = 0 then h.chunk else h.chunk + 1) % 65536


/-- A stream's intake is relayed: every host and wharf chunk (R427), and in a link-fed stage the inputs from which DERIVED tensors are
produced (R268). -/
def State.relayed (s : State) (st : Stream) : Bool := st.adm.source != .link || (s.job st.adm.job).image.kv.any (·.derived)

/-- The relay of one stream's chunk (R427); `last` ends its cohort's relay. -/
def State.relayOne (s : State) (i seq chunk : Nat) (last : Bool) (bs : List Byte) : State :=
  match s.stream i with
  | none => s
  | some st =>
    let d := s.draw
    d.2.sendTwin (mirrorRun (s.mirrorHead (d.1 * 128 + st.adm.job) (.relay i (seq % 2) last) st.adm.cohort chunk) bs)

/-- Streams of a cohort that its next boundary steps. -/
def State.stepping (s : State) (j k : Nat) : List (Nat × Stream) :=
  (OTable.entries s.streams).filter (fun e =>
    e.2.adm.job == j && e.2.adm.cohort == k && (e.2.state == .live))

/-- The chunk that a stream's next boundary steps, if its doorbell has arrived. -/
def Stream.nextChunk (st : Stream) : Option Chunk := st.queued.find? (fun q => q.seq == st.nextSeq)

/-- An intake entry's fault (R520, R522): a completion error, or a header that breaks R520. -/
def IntakeEntry.fault (e : IntakeEntry) (seq n : Nat) : Nat :=
  if !e.dmaOk then Cause.intakeDma
  else if e.reservedOk && e.seq == seq && (if e.endMark then decide (1 ≤ e.valid) && decide (e.valid ≤ n) else e.valid == 0) then 0
  else Cause.intakeBad

/-- An intake entry is read for stream `i` (R521): its bytes go into the berth and to the twin; a bad entry is reported once and
counts as missing. -/
def State.readEntry (s : State) (i : Nat) (st : Stream) (e : IntakeEntry) : State :=
  let j := st.adm.job
  let k := st.adm.cohort
  let sh := (s.job j).image.shape
  let seq := st.nextSeq
  let bad := e.fault seq sh.n
  let addr := st.adm.intakeBase.toNat + seq % 2 ^ st.adm.intakeLog2 * entryStride sh.intakeBytes
  let s1 := s.emit (.dmaRead st.adm.fn addr (entryStride sh.intakeBytes))
  let s2 := s1.modStream i (fun v => { v with queued := v.queued.map (fun q =>
    if q.seq = seq then { q with inBerth := true, endMark := e.endMark && bad == 0, valid := e.valid, tag := e.tag, bad := bad } else q) })
  if bad ≠ 0 then s2.faultEvent bad (some (partOfJob j)) (some j) 0 { handle := st.adm.handle }
  else
    let bs := e.samples.take sh.intakeBytes ++ List.replicate (sh.intakeBytes - e.samples.length) 0
    let s3 := s2.writeIntake j st.adm.row bs
    let missing := (s3.stepping j k).any (fun v => v.2.adm.source != .host ||
      (match v.2.nextChunk with | some q => !q.inBerth || q.bad != 0 | none => true))
    if s.relays then
      let s4 := s3.relayOne i seq ((s.job j).cohort k).upcoming (!missing) bs
      if missing then s4 else s4.modCohort j k (fun h => { h with relayLast := true })
    else s3

end Sys2Proof.Machine
end

