-- ==== Sys2Proof/Machine/MirrorOps.lean ====
section
/-! DEFINITION. Sending mirrors (12_pairs_and_takeover.md R432): the state of a cohort's streams, their KV summary changes, the job's
records. -/

namespace Sys2Proof.Machine

/-- A commit is mirrored into the twin: the pair is MIRRORED or SYNCING, or the twin is YIELDED (R432, R455, R467). -/
def State.mirrors (s : State) : Bool :=
  s.pair.state == .mirrored || s.pair.state == .syncing ||
  (s.pair.state == .solo && (s.pair.twinState == .yielded || s.pair.mirrorSyncing))

/-- The places of a job's records in the order in which a mirror carries them: per steered tensor its steering record, both scale
records and its window tally, then the GP context records, for the chip's own cohorts, then the same for its twin's (R166, R431, 06 "State
berths, the row table and the context records"): (core, pound, offset, bytes). -/
def State.recordPlaces (s : State) (j : Nat) (twin : Bool) : List (Nat × Nat × Nat × Nat) :=
  ((s.job j).image.tensors.filter (·.tallies)).flatMap (fun t =>
    let pl := t.place twin
    let n := t.channels
    let sizes := [(pl.steerRec, 16 + 5 * n), (pl.srec0, 64 + 4 * n + (n + 31) / 32), (pl.srec1, 64 + 4 * n + (n + 31) / 32), (pl.tally, 256 + 4 * n)]
    sizes.map (fun e => (Job.coreAt j t.core, t.pound, e.1, e.2))) ++
  (s.job j).image.contexts.map (fun c => (Job.coreAt j c.1, c.2.1, if twin then c.2.2.2 else c.2.2.1, 256))

/-- The bytes of places. -/
def State.readPlaces (s : State) (ps : List (Nat × Nat × Nat × Nat)) : List Byte :=
  ps.flatMap (fun e => readPound (s.core e.1).spad e.2.1 e.2.2.1 e.2.2.2)

/-- Write bytes over places; answers what is left of them. -/
def State.writePlaces (s : State) (ps : List (Nat × Nat × Nat × Nat)) (bs : List Byte) : State × List Byte :=
  ps.foldl (fun a e =>
    (a.1.modCore e.1 (fun c => { c with spad := writePound c.spad e.2.1 e.2.2.1 (a.2.take e.2.2.2) }), a.2.drop e.2.2.2)) (s, bs)

/-- The job's records that a mirror carries. -/
def State.jobRecords (s : State) (j : Nat) : List Byte := s.readPlaces (s.recordPlaces j false ++ s.recordPlaces j true)

/-- The attention records of a row, which belong to committed state (07 "Page table and attention record"). -/
def State.attention (s : State) (j row : Nat) : List Byte :=
  (s.job j).image.kv.flatMap (fun v => readPound (s.core (Job.coreAt j v.core)).spad v.pound (kvRec v row) 320)

/-- A row's committed state as a mirror carries it: state, attention records and the row's entry of the row table. -/
def State.committedState (s : State) (j row : Nat) : List Byte :=
  s.rowState j row ++ s.attention j row ++ leBytes 4 (s.rowEntry j row)

/-- Where its parts lie in a state slot: an attention record, the row table entry. -/
def Image.recordAt (i : Image) (t : Nat) : Nat := i.places.stateStride + 320 * t
def Image.rowWordAt (i : Image) : Nat := i.places.stateStride + 320 * i.kv.length

/-- Its length in 4 KiB units. -/
def Image.state4k (i : Image) : Nat := (i.rowWordAt + 4 + 4095) / 4096

/-- The lines of a cohort's mirror: its streams, but for those that this commit ended. -/
def State.mirrorLines (s : State) (j k : Nat) : List MirrorLine :=
  (s.streamsIn j k).filterMap (fun i => (s.stream i).bind (fun st =>
    if st.state = .opening ∨ (st.state = .closing ∧ (st.stepping.map (·.final)) = some true) then none
    else some { index := i, stream := st, state4k := (s.job j).image.state4k }))

/-- Summary slots that one mirror of a job can carry in its 256 KiB (R430). -/
def State.slotsPerMirror (s : State) (j : Nat) : Nat :=
  262144 / max 1 (((s.job j).image.kv.map (·.slotBytes)).foldl max 0)

/-- The changed slots of a stream that piece `piece` of its cohort's mirror carries; a later piece carries those beyond the first
256 KiB (R271, R430). -/
def State.slotsIn (s : State) (j piece i : Nat) : List (Nat × Nat) :=
  ((s.summaryDue i).drop (piece * s.slotsPerMirror j)).take (s.slotsPerMirror j)

/-- The run of a stream's changed summary slots, if any changed (R271). -/
def State.summaryRun (s : State) (x k chunk i : Nat) (st : Stream) (es : List (Nat × Nat)) : List LinkMsg :=
  let ch := es.filterMap (s.slotChange i st)
  if ch = [] then [] else
    mirrorRun (s.mirrorHead x (.summary i (ch.map (fun e => (e.1, e.2.length)))) k chunk) (ch.flatMap (·.2))

/-- The mirror of one cohort's commit of chunk `chunk` (R432): every stream's state and summary changes, the job's records, the
COMMIT. `due` is the time from which its acknowledgement is late (R435). -/
def State.sendMirror (s : State) (j k chunk piece : Nat) (due : Option Nat) : State :=
  let d := s.draw
  let x := d.1 * 128 + j
  let lines := s.mirrorLines j k
  let states := lines.flatMap (fun l =>
    mirrorRun (s.mirrorHead x (.state l.index j (s.job j).image.state4k) k chunk) (s.committedState j l.stream.adm.row) ++
      s.summaryRun x k chunk l.index l.stream (s.slotsIn j piece l.index))
  let recs := mirrorRun (s.mirrorHead x (.record j) k chunk) (s.jobRecords j)
  let m : MirrorSent := { job := j, cohort := k, chunk := chunk, due := due,
                          slots := lines.flatMap (fun l => (s.slotsIn j piece l.index).map (fun e => (l.index, e))) }
  { d.2 with pair := { d.2.pair with sent := d.2.pair.sent ++ [m] } }.sendTwin
    (states ++ recs ++ [LinkMsg.mirrorCommit s.pair.epoch.toNat k chunk lines])

/-- An acknowledged mirror's slots are no longer due, but for those that have changed since it was sent (R271). -/
def State.mirrorAcked (s : State) (m : MirrorSent) : State :=
  { s with kvSent := m.slots.foldl (fun t e => Table.upd [] t e.1 (fun l => l.filter (· != e.2))) s.kvSent }

/-- The mirror that an acknowledgement of a cohort's chunk names, with the later ones: acknowledgements come in the order of the mirrors, so
that none will come for those before it. -/
def Pair.ackOf (p : Pair) (cohort chunk : Nat) : Option (MirrorSent × List MirrorSent) :=
  match p.sent.dropWhile (fun m => m.cohort != cohort || m.chunk != chunk) with
  | [] => none
  | m :: rest => some (m, rest)

/-- Every slot of a stream's summary that holds a position has changed for a new twin. -/
def State.touchSummary (s : State) (i : Nat) : State :=
  match s.stream i with
  | none => s
  | some st =>
    let all := (List.range (s.job st.adm.job).image.kv.length).flatMap (fun t =>
      ((List.range 320).filter (fun n => !(s.kvSlot i t n).data.isEmpty)).map (fun n => (t, n)))
    { s with kvSent := Table.put [] s.kvSent i all }

/-- The mirrors that a cohort's initial mirror takes. -/
def State.pieces (s : State) (j k : Nat) : Nat :=
  1 + (((s.streamsIn j k).map (fun i => (Table.look [] s.kvSent i).length)).foldl max 0 - 1) / max 1 (s.slotsPerMirror j)

/-- The initial mirror: every cohort that the chip carries; a COMMIT without a cohort ends it (R467). -/
def State.startMirror (s : State) : State :=
  let s1 := { s with pair := { s.pair with mirrorSyncing := true, ownSynced := false, sent := [] } }
  let s2 := s1.each (OTable.keys s1.streams) State.touchSummary
  let s3 := s2.each s2.servedCohorts (fun s e =>
    s.each (List.range (s.pieces e.1 e.2)) (fun s n => s.sendMirror e.1 e.2 (((s.job e.1).cohort e.2).seq) n none))
  s3.sendTwin [.mirrorCommit s.pair.epoch.toNat 0x3F 0xFFFF []]

end Sys2Proof.Machine
end

