-- ==== Sys2Proof/Machine/WharfOps.lean ====
section
/-! DEFINITION. Wharves (13_wharves.md): the configuration's fields (R471 to R481), references and failover (R497 to R500), bindings
(R482 to R485), the slip buffers (R490, R493, R739), playout (R491 to R494). -/

namespace Sys2Proof.Machine

/-! ## Fields -/

def Wharf.role (w : Wharf) : Nat := bits w.cfg.toNat 29 2
def Wharf.setRole (w : Wharf) (r : Nat) : Wharf :=
  { w with cfg := (w.cfg &&& 0x9FFFFFFF) ||| BitVec.ofNat 32 (r * 2 ^ 29) }
/-- The reference that a wharf runs from, and its REF_CUR, HOLDOVER and SYN_NOM replaced. -/
def Wharf.refCur (w : Wharf) : Nat := bits w.clk.toNat 28 2
def Wharf.synNom (w : Wharf) : Nat := bits w.clk.toNat 25 2
def Wharf.setSource (w : Wharf) (ref hold syn : Nat) : Wharf :=
  { w with clk := (w.clk &&& 0xC1FFFFFF) ||| pack [(ref, 28), (hold, 27), (syn, 25)] }

/-- Sample rates and data words (13 "Registers"). -/
def rateHz (n : Nat) : Nat := [8000, 16000, 32000, 44100, 48000].getD n 48000
def wordLen (n : Nat) : Nat := [16, 24, 32].getD n 32

/-- The frame of a configuration word: slots, slot width, data word, first-slot offset (R477, R478). -/
structure Frame where
  slots : Nat
  slotW : Nat
  word : Nat
  offset : Nat
  deriving DecidableEq, Repr

def frameOf (cfg : Nat) : Frame :=
  let wd := wordLen (bits cfg 22 2)
  match bits cfg 27 2 with
  | 0 => { slots := bits cfg 12 5 + 1, slotW := bits cfg 17 5 + 1, word := wd, offset := bits cfg 7 5 }
  | 1 => { slots := 2, slotW := wd, word := wd, offset := 1 }
  | _ => { slots := 2, slotW := wd, word := wd, offset := 0 }

/-- Spill sp in bit clocks (R479). -/
def Frame.spill (f : Frame) : Nat := f.offset - (f.slotW - f.word)

def Wharf.frame (w : Wharf) : Frame := frameOf w.cfg.toNat
def Wharf.rate (w : Wharf) : Nat := rateHz (bits w.cfg.toNat 24 3)
/-- Bytes of a sample in a berth (R485). -/
def Wharf.sampleBytes (w : Wharf) : Nat := if w.frame.word = 16 then 2 else 4
/-- Channels of a slot mask (R481). -/
def maskChannels (m : Word) : Nat := (List.range 32).countP (fun i => m.getLsbD i)
/-- The divider D in units of 2⁻²⁴. -/
def Wharf.divider (w : Wharf) : Nat := bits w.clk.toNat 0 12 * 2 ^ 24 + w.frac.toNat

/-- Nominal frequency of a reference code in Hz (R471). -/
def nomHz (n : Nat) : Nat := [11289600, 12288000, 22579200, 24576000].getD n 11289600
/-- f_aref in Hz of a source (R471, R736). -/
def State.fAref (s : State) (ref syn : Nat) : Nat := 8 * nomHz (if ref = 2 then syn else (s.ref ref).nom)

/-- The stored configuration word: VALID, and what a word-select format fixes (R478). -/
def storedCfg (cfg : Word) : Word :=
  if bits cfg.toNat 27 2 = 0 then cfg ||| 0x80000000
  else
    let f := frameOf cfg.toNat
    (cfg &&& 0xFFC0003F) ||| pack [(1, 31), (f.slotW - 1, 17), (1, 12), (f.offset, 7), (1, 6)]

/-- WHARF_CONFIG's checks (R469, R475, R480, R481, R717), in the order of the packet's words within each step. -/
def State.wharfBad (s : State) (c : Cmd) : Option (Nat × Nat) :=
  let cfg := c.p 1
  let clk := c.p 2
  let f := frameOf cfg
  let tdm := bits cfg 27 2 == 0
  let d := bits clk 0 12 * 2 ^ 24 + c.p 3
  let fa := s.fAref (bits clk 30 2) (bits clk 25 2)
  let rate := rateHz (bits cfg 24 3)
  let ideal := rate * f.slots * f.slotW * d
  let err := (fa * 2 ^ 24 - ideal) + (ideal - fa * 2 ^ 24)
  let cfgOk := !bitAt cfg 31 && bits cfg 29 2 < 3 && bits cfg 27 2 < 3 && bits cfg 24 3 < 5 && bits cfg 22 2 < 3 && 1 ≤ bits cfg 0 4 &&
    (!tdm || (c.f 0 0 4 < 8 && 8 ≤ f.slotW && f.word ≤ f.slotW))
  let clkOk := bits clk 30 2 < 3 && bits clk 27 3 == 0 && bits clk 12 13 == 0 && 2 ≤ bits clk 0 12
  match firstBad [c.stray [0xF], req (c.f 0 0 4 ≤ 9) 8, req cfgOk 9, req clkOk 10,
      c.stray [0xF, 0xFFFFFFFF, 0xFFFFFFFF, 0xFFFFFF]] with
  | some e => some e
  | none => firstBad [req (f.spill * d * 10 ^ 6 ≤ 4 * fa * 2 ^ 24) 9,
      req (decide (fa * 2 ^ 24 ≤ 50000000 * d) && decide (err * 10 ^ 6 ≤ ideal) && decide (8 * fa ≤ bits clk 0 12 / 2 * 10 ^ 9)) 10,
      req (c.p 4 < 2 ^ f.slots) 12, req (c.p 5 < 2 ^ f.slots) 13]

/-! ## Times -/

/-- Nanoseconds of schedule time that a frame's data takes after its closing edge (R479). -/
def State.spillNs (s : State) (w : Wharf) : Nat :=
  let fa := s.fAref w.refCur w.synNom
  w.frame.spill * w.divider * 10 ^ 9 / (fa * 2 ^ 24)

/-- P_f at the nominal rate lies between two times: `t + P_f ≤ u` (R493). -/
def Wharf.frameBy (w : Wharf) (t u : Nat) : Bool := decide (t ≤ u) && decide (10 ^ 9 ≤ (u - t) * w.rate)
/-- P_f in whole nanoseconds. -/
def Wharf.frameNs (w : Wharf) : Nat := 10 ^ 9 / w.rate

/-! ## Bindings -/

/-- The binding that the accepted commands will leave a stream (R545). -/
def State.plannedBind (s : State) (i : Nat) : Option Binding :=
  (s.waits.filterMap (fun w => match w.kind with
    | .commit _ _ _ (.bind k b) => if k = i then some b else none
    | _ => none)).getLastD ((s.stream i).bind (·.binding))

/-- Bindings of streams to a wharf, but for stream `i`. -/
def State.bindings (s : State) (n i : Nat) : List Binding :=
  (OTable.keys s.streams).filterMap (fun k => if k = i then none else
    match s.plannedBind k with | some b => if b.wharf = n then some b else none | none => none)

/-- Whether two channel ranges share a channel. -/
def meets (a n b m : Nat) : Bool := decide (0 < n) && decide (0 < m) && decide (a < b + m) && decide (b < a + n)

/-- Bytes of one chunk of a binding's intake (R485). -/
def State.bindBytes (s : State) (j : Nat) (b : Binding) : Nat :=
  let w := s.wharf b.wharf
  w.rate * (s.job j).image.shape.periodMs / 1000 * b.rxCount * w.sampleBytes

/-- Wharf intake that closes in a cohort's window, but for stream `i` (R483). -/
def State.wharfIntake (s : State) (j k i : Nat) : Nat :=
  ((s.streamsIn j k).map (fun m => if m = i then 0 else
    match s.plannedBind m with | some b => s.bindBytes j b | none => 0)).sum

/-- The slip buffer's key. -/
def bufKey (j k : Nat) : Nat := j * 32 + k

/-- A cohort that is bound to a wharf has a slip buffer from its next boundary on (R493). -/
def State.ensureBuf (s : State) (n j k : Nat) : State :=
  let w := s.wharf n
  let per := (s.job j).period
  if w.bufs.any (fun e => e.1 == bufKey j k) || per == 0 then s
  else
    let buf : SlipBuf := { b := s.nextBoundary (s.job j) k s.time.now, n := w.rate * (s.job j).image.shape.periodMs / 1000,
                           periodNs := per }
    s.modWharf n (fun w => { w with bufs := Table.put {} w.bufs (bufKey j k) buf })

/-- A binding takes effect (R484): the stream's, with the slip buffer of its cohort. -/
def State.applyBind (s : State) (i : Nat) (b : Option Binding) : State :=
  match s.stream i, b with
  | some st, some v => (s.modStream i (fun t => { t with binding := some v })).ensureBuf v.wharf st.adm.job st.adm.cohort
  | some _, none => s.modStream i (fun t => { t with binding := none })
  | none, _ => s

/-! ## Intake -/

/-- A sample's data word as its berth bytes (R485): a 24-bit word occupies bits [31:8]. -/
def berthSample (word : Nat) (bs : List Byte) : List Byte :=
  let d := (bs ++ List.replicate 4 0).take (word / 8)
  if word = 24 then 0 :: d else d

/-- The slots of a mask in ascending order: channel i is the i-th of them (R481). -/
def maskSlots (m : Word) : List Nat := (List.range 32).filter (fun q => m.getLsbD q)

/-- A frame's berth bytes by RX channel, of its slots' data words (R481, R485). -/
def Wharf.rxFrame (w : Wharf) (slots : List (List Byte)) : List (List Byte) :=
  (maskSlots w.rxMask).map (fun q => berthSample w.frame.word (slots.getD q []))

/-- A frame of zeros. -/
def Wharf.zeroRx (w : Wharf) : List (List Byte) :=
  List.replicate (maskChannels w.rxMask) (List.replicate w.sampleBytes 0)

/-- The intake of a binding from a closed chunk's frames (R485). -/
def Binding.intake (b : Binding) (frames : List (List (List Byte))) : List Byte :=
  frames.flatMap (fun f => ((f.drop b.rxFirst).take b.rxCount).flatten)

/-- A STANDBY wharf's own capture of a twin's chunk, closed at `t0`, goes into the relay slot of a chunk that the primary has not relayed
(R28, R429). -/
def State.capture (s : State) (n j k t0 : Nat) (frames : List (List (List Byte))) : State :=
  let own := (s.job j).own
  s.each (s.pair.mirror.filter (fun e => e.2.valid)) (fun s e =>
    match e.2.stream with
    | some st =>
      match st.binding with
      | some b =>
        if b.wharf = n ∧ st.adm.job = j ∧ swapCohort own st.adm.cohort = k ∧ 0 < b.rxCount then
          let next := (e.2.mirrorSeq + 1) % 65536
          let later := match e.2.captured with | some c => c.1 == next && decide (c.2 < t0) | none => false
          let seq := if later then (next + 1) % 65536 else next
          let bs := b.intake frames
          let s1 := if e.2.relayHeld ∧ e.2.relaySeq = seq then s
            else { s with hbm := s.hbm.writes ((List.range bs.length).map (fun i => (relayAddr e.1 (seq % 2) + i, bs.getD i 0))) }
          s1.modEntry e.1 (fun m => { m with captured := some (seq, t0) })
        else s
      | none => s
    | none => s)

/-- A chunk closes at T0 (R493): PHASE is T0 − B in units of 4 ns; an overrun is reported once (R490). -/
def State.closeChunk (s : State) (n key : Nat) (t0 : Nat) (gap : Bool) (frames : List (List (List Byte))) : State :=
  let w := s.wharf n
  let buf := Table.look {} w.bufs key
  let j := key / 32
  let k := key % 32
  let s1 := s.modWharf n (fun w => { w with
    phase := ((t0 : Int) - buf.b) / 4,
    bufs := Table.put {} w.bufs key { buf with frames := [], dropped := false, gap := false, b := s.nextBoundary (s.job j) k buf.b } })
  let s2 := if buf.gap then s1.faultEvent Cause.wharfOverrun (some (partOfJob j)) (some j) n {} else s1
  if s.streamsIn j k = [] then s2.capture n j k t0 frames
  else s2.modWharf n (fun w => { w with
    closed := w.closed.filter (fun c => !(c.job == j && c.cohort == k)) ++
      [{ job := j, cohort := k, t0 := t0, gap := gap || buf.gap, frames := frames }] })

/-- A frame enters one cohort's slip buffer (R493): a fast wharf drops one frame at most. -/
def State.frameInto (s : State) (n key : Nat) (frame : List (List Byte)) (t : Nat) (overrun : Bool) : State :=
  let w := s.wharf n
  let buf := Table.look {} w.bufs key
  let fs := buf.frames ++ [frame]
  if fs.length < buf.n then
    s.modWharf n (fun w => { w with bufs := Table.put {} w.bufs key { buf with frames := fs, gap := buf.gap || overrun } })
  else if !buf.dropped && decide (10 ^ 9 < (buf.b - t) * w.rate) then
    s.modWharf n (fun w => { w with
      slipDrop := satAdd w.slipDrop 1, winDrop := w.winDrop + 1,
      bufs := Table.put {} w.bufs key { buf with frames := fs.drop 1, dropped := true, gap := buf.gap || overrun } })
  else
    (s.modWharf n (fun w => { w with bufs := Table.put {} w.bufs key { buf with gap := buf.gap || overrun } })).closeChunk
      n key t false fs

/-- A received frame is complete, with its data words by slot (R489, R490, R493). -/
def State.frameDone (s : State) (n : Nat) (samples : List (List Byte)) (overrun : Bool) : State :=
  let w := s.wharf n
  let t := s.time.now - s.spillNs w
  let frame := if overrun then w.zeroRx else w.rxFrame samples
  let s1 := s.modWharf n (fun w => { w with frames := w.frames + 1,
                                            rxOverrun := if overrun then satAdd w.rxOverrun 1 else w.rxOverrun })
  let s2 := s1.each (w.bufs.map (·.1)) (fun s key => s.frameInto n key frame t overrun)
  s2.modWharf n (fun w => { w with lastClose := some t })

/-- A boundary comes with a cohort's chunk incomplete (R493, R739): one frame short repeats the newest, more are zero frames at its
start. A wharf that makes no frames closes nothing. -/
def State.wharfAt (s : State) (n key : Nat) : State :=
  let w := s.wharf n
  let buf := Table.look {} w.bufs key
  if buf.periodNs = 0 ∨ s.time.now < buf.b then s
  else if w.state ≠ .running ∧ w.state ≠ .standby then
    let next := { buf with frames := [], dropped := false, gap := false, b := s.nextBoundary (s.job (key / 32)) (key % 32) buf.b }
    s.modWharf n (fun w => { w with bufs := Table.put {} w.bufs key next })
  else if buf.frames.length + 1 = buf.n ∧ buf.frames ≠ [] then
    (s.modWharf n (fun w => { w with slipRep := satAdd w.slipRep 1, winRep := w.winRep + 1 })).closeChunk
      n key (w.lastClose.getD (buf.b - w.frameNs)) false (buf.frames ++ [buf.frames.getLastD []])
  else
    s.closeChunk n key (w.lastClose.getD (buf.b - w.frameNs)) true
      (List.replicate (buf.n - buf.frames.length) w.zeroRx ++ buf.frames)

/-! ## Playout -/

/-- The samples of frame `pos` of sources, by TX channel. The spec does not say where a stream's output samples lie, so they are
free values. -/
def txSamples (word bytes : Nat) (src : List TxSource) (pos : Nat) : List (Nat × List Byte) :=
  src.flatMap (fun t => (List.range t.count).map (fun c =>
    let at_ := (pos * t.count + c) * bytes
    let bs := (List.range bytes).map (fun i => Config.freeOut t.draw (at_ + i))
    (t.first + c, if word = 24 then bs.drop 1 else bs)))

/-- What one cohort sends at a frame opening: its samples (none is an underrun), the chunk afterwards (none when it has ended with
its last frame), and its slip: 0 none, 1 drop, 2 repeat. -/
structure TxStep where
  samples : Option (List (Nat × List Byte))
  chunk : TxChunk
  ended : Bool
  slip : Nat

/-- The next frame of a chunk at an opening at schedule time `t` (R491, R492, R494); none while its playout has not begun. -/
def Wharf.playOne (w : Wharf) (t : Nat) (c : TxChunk) : Option TxStep :=
  let get (src : Option (List TxSource)) (pos : Nat) := src.map (fun l => txSamples w.frame.word w.sampleBytes l pos)
  let go (pos slip : Nat) : TxStep :=
    { samples := get c.frames pos, chunk := { c with started := true, pos := pos + 1 }, ended := decide (c.n ≤ pos + 1), slip := slip }
  if c.started then some (go c.pos 0)
  else
    match c.prev with
    | none => if t < c.at_ then none else some (go 0 0)
    | some (src, pos) =>
      if t < c.at_ ∧ !c.repeated then
        some { samples := get (some src) pos, chunk := { c with repeated := true }, ended := false, slip := 2 }
      else if w.frameBy c.at_ t then some (go 1 1)
      else some (go 0 0)

/-- The first chunk of each cohort in a wharf's playout. -/
def txHeads (l : List TxChunk) : List TxChunk :=
  l.filter (fun c => (l.find? (fun d => d.job == c.job && d.cohort == c.cohort)) == some c)

/-- A chunk's playout after a step: an ended chunk goes, and the one after it follows its last frame. -/
def txAdvance (l : List TxChunk) (was : TxChunk) (r : TxStep) : List TxChunk :=
  if r.ended then
    let rest := l.erase was
    match rest.find? (fun d => d.job == was.job && d.cohort == was.cohort) with
    | some d => rest.map (fun x => if x = d then { d with prev := some (was.frames.getD [], was.n - 1) } else x)
    | none => rest
  else l.map (fun x => if x = was then r.chunk else x)

/-! ## Frames on the pins (R477, R478) -/

/-- A slot's bits: the data word MSB first, then pad bits of 0. -/
def Frame.slotBits (f : Frame) (word : List Byte) : List Bool :=
  let v := leNat word
  (List.range f.slotW).map (fun i => decide (i < f.word) && v.testBit (f.word - 1 - i))

/-- The bits of all slots in order; a slot without a TX channel is 0 (R481). -/
def Wharf.slotsOut (w : Wharf) (frame : List (List Byte)) : List Bool :=
  let ch := (maskSlots w.txMask).zip frame
  (List.range w.frame.slots).flatMap (fun q => w.frame.slotBits (((ch.find? (fun e => e.1 == q)).map (·.2)).getD []))

/-- WHn_DOUT over one frame's bit clocks, and the bits that fall at the first indices of the next: slot 0 starts at index o. -/
def Wharf.doutBits (w : Wharf) (frame : List (List Byte)) : List Bool × List Bool :=
  let tail := if w.txTail.length = w.frame.offset then w.txTail else List.replicate w.frame.offset false
  let all := tail ++ w.slotsOut frame
  let n := w.frame.slots * w.frame.slotW
  (all.take n, all.drop n)

/-- WHn_FSYNC over one frame's bit clocks: the sync of TDM at the level of FS_POL, the word select of the other formats. -/
def Wharf.fsyncBits (w : Wharf) : List Bool :=
  let c := w.cfg.toNat
  let f := w.frame
  (List.range (f.slots * f.slotW)).map (fun i =>
    match bits c 27 2 with
    | 0 => decide (i < if bitAt c 6 then f.slotW else 1) != bitAt c 5
    | 1 => decide (f.slotW ≤ i)
    | _ => decide (i < f.slotW))

/-- The frame that a wharf sends at an opening (R477, R484, R492). -/
def State.playout (s : State) (n : Nat) : State :=
  let w := s.wharf n
  let steps := (txHeads w.tx).filterMap (fun c => (w.playOne s.time.now c).map (fun r => (c, r)))
  let under := steps.any (fun e => e.2.samples.isNone)
  let got := steps.flatMap (fun e => e.2.samples.getD [])
  let zero := List.replicate (w.frame.word / 8) (0 : Byte)
  let chans := List.range (maskChannels w.txMask)
  let frame := if under then (if bitAt w.cfg.toNat 4 && !w.lastTx.isEmpty then w.lastTx else chans.map (fun _ => zero))
    else chans.map (fun c => ((got.find? (fun e => e.1 == c)).map (·.2)).getD zero)
  let drops := steps.countP (fun e => e.2.slip == 1)
  let reps := steps.countP (fun e => e.2.slip == 2)
  let pins := w.doutBits frame
  let s1 := s.modWharf n (fun w => { w with
    tx := steps.foldl (fun l e => txAdvance l e.1 e.2) w.tx, lastTx := frame, txTail := pins.2,
    txUnderrun := if under then satAdd w.txUnderrun 1 else w.txUnderrun,
    slipDrop := satAdd w.slipDrop drops, slipRep := satAdd w.slipRep reps, winDrop := w.winDrop + drops, winRep := w.winRep + reps })
  if w.hiZ then s1 else s1.emit (.txFrame n frame pins.1 w.fsyncBits)

/-! ## Sources -/

/-- A wharf changes its source at a frame opening (R499, R500). -/
def State.switchSource (s : State) (n : Nat) : State :=
  let w := s.wharf n
  match w.refNext with
  | none => s
  | some (src, kind) =>
    let syn := if kind = 2 ∧ w.refCur ≠ 2 then (s.ref w.refCur).nom else w.synNom
    let s1 := s.modWharf n (fun w => { (w.setSource src (b2n (kind == 2)) syn) with
      refNext := none, refFailover := if kind = 0 then w.refFailover else satAdd w.refFailover 1 })
    if kind = 2 then s1.faultEvent Cause.refLost none none n {} else s1

/-- Reference `r` has FAILED: where the wharves that run from it go (R499). -/
def State.failover (s : State) (r : Nat) : State :=
  let o := s.ref (1 - r)
  let ok := (o.state == 1 || o.state == 2) && o.nom == (s.ref r).nom
  { s with wharves := Table.mapV {} s.wharves (fun _ w =>
      if w.state = .stopped then w
      else if w.refCur = r then { w with refNext := some (if ok then (1 - r, 1) else (2, 2)) }
      else if w.refNext = some (r, 1) then { w with refNext := some (2, 2) }
      else w) }

/-- A reference changes state (R498, R737). -/
def State.refState (s : State) (r st : Nat) : State :=
  let s1 := s.modRef r (fun v => { v with state := st, events := if st = 2 ∨ st = 3 then satAdd v.events 1 else v.events,
                                          calmRun := if st = 3 then 0 else v.calmRun })
  let s2 := s1.event Ev.refDrift none none st r [BitVec.ofNat 32 ((s.ref r).drift.emod 65536).toNat]
  if st = 3 then s2.failover r else s2

/-- The mean of a list of drifts. -/
def meanDrift (ds : List Int) : Int := if ds = [] then 0 else ds.foldl (· + ·) 0 / (ds.length : Int)

/-- One 100 ms window of one reference (R497, R498), in units of 0.1 ppm. -/
def State.refWindowOne (s : State) (r edges : Nat) : State :=
  let v := s.ref r
  let nom : Int := nomHz v.nom / 10
  if edges = 0 then
    let s1 := s.modRef r (fun v => { v with edgeRun := 0, calmRun := 0 })
    if v.state = 1 ∨ v.state = 2 then s1.refState r 3 else s1
  else
    let w : Int := ((edges : Int) - nom) * 10000000 / nom
    let ds := lastN 10 (v.drifts ++ [w])
    let d := meanDrift ds
    let calm := if d.natAbs < 400 then v.calmRun + 1 else 0
    let s1 := s.modRef r (fun v => { v with drift := d, drifts := ds, edgeRun := v.edgeRun + 1, calmRun := calm })
    match v.state with
    | 0 => if 10 ≤ v.edgeRun + 1 then s1.refState r 1 else s1
    | 3 => if 100 ≤ calm then s1.refState r 1 else s1
    | st =>
      if 2000 ≤ d.natAbs ∨ 10000 ≤ w.natAbs then s1.refState r 3
      else if st = 1 ∧ 500 ≤ d.natAbs then s1.refState r 2
      else if st = 2 ∧ 10 ≤ calm then s1.refState r 1
      else s1

/-! ## Starting and stopping -/

/-- A wharf stops: outputs hi-Z, rings empty. -/
def Wharf.halt (w : Wharf) : Wharf :=
  { w with state := .stopped, hiZ := true, stopping := false, startPending := false, trigPin := false, tx := [], closed := [],
           lastClose := none, refNext := none, enabling := false, swapAt := none,
           bufs := Table.mapV {} w.bufs (fun _ b => { b with frames := [], dropped := false, gap := false }) }

/-- WHARF_STOP commands whose wharves have all stopped are answered; so are WHARF_START commands whose wharves no longer wait. -/
def State.answerStops (s : State) : State :=
  let s1 := s.answerWaits (fun w => match w.kind with
    | .wharfStop ns => ns.all (fun n => (s.wharf n).state == .stopped)
    | _ => false) (fun _ => (St.ok, 0, []))
  s1.answerWaits (fun w => match w.kind with
    | .wharfStart ns => ns.all (fun n => (s.wharf n).state != .armed)
    | _ => false) (fun _ => (St.wrongState, 0, []))

/-- A wharf opens frame 0 on the 16th f_aref edge after the start edge (R488). -/
def State.startWharf (s : State) (n : Nat) : State :=
  let fa := s.fAref (s.wharf n).refCur (s.wharf n).synNom
  let standing := s.pair.state == .fenced
  let s1 := s.modWharf n (fun w => { w with
    state := .running, startPending := false, trigPin := false, frames := 0, lastClose := none,
    openAt := s.time.now + 16 * 10 ^ 9 / fa, hiZ := standing || w.role == 2, lastTx := [], txTail := [], tx := [], closed := [] })
  s1.modWharf n (fun w => { w with bufs := Table.mapV {} w.bufs (fun key b =>
    { b with frames := [], dropped := false, gap := false, b := s1.nextBoundary (s1.job (key / 32)) (key % 32) s1.time.now }) })

/-- Wharf numbers of a 10-bit mask. -/
def maskWharves (m : Nat) : List Nat := (List.range 10).filter (fun n => bitAt m n)

end Sys2Proof.Machine
end

