-- ==== Sys2Proof/Machine/ChunkOps.lean ====
section
/-! DEFINITION. The life of a chunk (01_architecture.md R23 to R40, 14_streams_and_host.md R518 to R529): what a boundary steps, the
commit with the changes that it puts in force, the result records. -/

namespace Sys2Proof.Machine

/-! ## Boundary -/

/-- Nanoseconds before B_k that are the T0 of a gap chunk, and the latest doorbell's window (R29, R522). -/
def gapLead : Nat := 20000
/-- Nanoseconds from T0 to the start of compute (R31, R32). -/
def relayNs : Nat := 50000

/-- The stepping of a chunk without intake (R518, R522). -/
def gapStep (seq b : Nat) : Stepping :=
  { seq := seq, t0 := b - gapLead, tag := 0, gap := true, final := false, replay := false, rerun := false }

/-- The origin of a chunk's windows (R30, R31): T0, in a link-fed stage T0_s = T0 + Δ_s. -/
def Image.origin (i : Image) (t0 : Nat) : Nat := if i.shape.linkFed then t0 + i.stageNs else t0

/-- What a stream steps on at the boundary `b` in the cohort's chunk `chunk`, with the intake that is written into its berth then (R28 to
R30, R518, R521, R522). The boundary stands for T0_s while no retained send has told the pipeline's T0. -/
def State.stepOf (s : State) (j k b chunk : Nat) (st : Stream) : Stepping × Option (List Byte) :=
  let base := gapStep st.nextSeq b
  let zeros := List.replicate (s.job j).image.shape.intakeBytes (0 : Byte)
  match st.adm.source with
  | .host =>
    match st.nextChunk with
    | some q =>
      if q.inBerth ∧ q.bad = 0 ∧ q.arrived < b then
        ({ base with t0 := max q.arrived (b - gapLead), tag := q.tag, gap := false, final := q.endMark }, none)
      else (base, some zeros)
    | none => (base, some zeros)
  | .wharf =>
    match st.binding with
    | some v =>
      match (s.wharf v.wharf).closed.find? (fun c => c.job == j && c.cohort == k) with
      | some c => if v.rxCount = 0 then (base, some zeros) else
          ({ base with t0 := c.t0, gap := c.gap }, some (v.intake c.frames))
      | none => (base, some zeros)
    | none => (base, some zeros)
  | .link =>
    let t := ((s.job j).cohort k).pipeT0 chunk
    ({ base with t0 := if t = 0 then b - (s.job j).image.stageNs else t, gap := false }, none)

/-- A missing chunk of a host-fed stream counts toward GAP_LIMIT (R518, R522). -/
def Stream.counts (st : Stream) (g : Stepping) : Bool := g.gap && st.adm.source == .host

/-- A stream steps (R521, R522, R529): its sequence advances; a close, an END mark or the gap limit makes this its last chunk. -/
def Stream.step (st : Stream) (g : Stepping) : Stream :=
  let run := if st.counts g then st.gapRun + 1 else 0
  let last := g.final || st.endStep.isSome || (st.counts g && decide (st.adm.gapLimit ≤ run))
  { st with
    stepping := some { g with final := last }, nextSeq := (g.seq + 1) % 65536, queued := st.queued.filter (fun q => q.seq != g.seq),
    gapRun := run, gaps := if st.counts g then satAdd st.gaps 1 else st.gaps,
    state := if last then .closing else st.state, planned := if last then .closing else st.planned }

/-- Step streams of a cohort; `steps` are (index, stepping, intake). -/
def State.stepAll (s : State) (j : Nat) (steps : List (Nat × Stepping × Option (List Byte))) : State :=
  s.each steps (fun s e =>
    match s.stream e.1 with
    | none => s
    | some st =>
      let s1 := match e.2.2 with | some bs => s.writeIntake j st.adm.row bs | none => s
      s1.setStream e.1 (some (st.step e.2.1)))

/-- Paused streams that a close reaches stay held through this chunk (R529). -/
def State.closePaused (s : State) (j k : Nat) : State :=
  s.each (s.streamsIn j k) (fun s i => s.modStream i (fun st =>
    if st.state = .paused ∧ st.endStep.isSome then { st with state := .closing } else st))

/-- The relay of what a boundary stepped and no intake read has relayed (R427); the last run of a cohort's relay says so. -/
def State.relayAll (s : State) (j chunk : Nat) (sent : Bool) (steps : List (Nat × Stepping × Option (List Byte))) : State :=
  let bytes := (s.job j).image.shape.intakeBytes
  let host := steps.filter (fun e => match s.stream e.1 with | some st => s.relayed st | none => false)
  let needs := host.filter (fun e => e.2.2.isSome || (match s.stream e.1 with | some st => st.adm.source == .link | none => false))
  let todo := if needs = [] ∧ !sent then lastN 1 host else needs
  let lastIx := (todo.getLast?.map (·.1)).getD 0
  s.each todo (fun s e =>
    match s.stream e.1 with
    | none => s
    | some st => s.relayOne e.1 e.2.1.seq chunk (e.1 == lastIx) (s.readIntake j st.adm.row bytes))

/-- The chunk's playout on each wharf that a stepped stream sends to (R491). -/
def State.planTx (s : State) (j k chunk b : Nat) (is : List Nat) : State :=
  let sh := (s.job j).image.shape
  let ws := (is.filterMap (fun i => (s.stream i).bind (fun st => st.binding.bind (fun v =>
    if 0 < v.txCount then some v.wharf else none)))).eraseDups
  s.each ws (fun s n => s.modWharf n (fun w => if w.state = .running then
    { w with tx := w.tx ++ [{ job := j, cohort := k, chunk := chunk, at_ := b + sh.txLag, n := w.rate * sh.periodMs / 1000 }] } else w))

/-- The step of a cohort begins at its boundary `b` (R40): wharf chunks close, streams step, the relay ends. The schedule that runs it is
the solo one from D + 100 µs on (R447). -/
def State.openChunk (s0 : State) (j k b : Nat) : State :=
  let s := s0.useSchedule j k (s0.soloAt b)
  let h := (s.job j).cohort k
  let chunk := h.upcoming
  let s1 := s.each (List.range 10) (fun s n =>
    if (s.wharf n).bufs.any (fun e => e.1 == bufKey j k) then s.wharfAt n (bufKey j k) else s)
  let steps := (s1.stepping j k).map (fun e => (e.1, s1.stepOf j k b chunk e.2))
  let t0 := if steps = [] then b - gapLead else (steps.map (fun e => (s.job j).image.origin e.2.1.t0)).foldl max 0
  let s2 := (s1.stepAll j steps).closePaused j k
  let s3 := { s2 with wharves := Table.mapV {} s2.wharves (fun _ w =>
    { w with closed := w.closed.filter (fun c => !(c.job == j && c.cohort == k)) }) }
  let s4 := s3.planTx j k (if h.bk = 0 then h.chunk else h.chunk + 1) b (steps.map (·.1))
  let waits := s.relays && steps.any (fun e => match s.stream e.1 with | some st => s.relayed st | none => false)
  let s5 := if waits then s4.relayAll j chunk h.relayLast steps else s4
  s5.modCohort j k (fun h => { h with
    chunk := if h.bk = 0 then h.chunk else h.chunk + 1, phase := .waitRelay, bk := b,
    t0 := t0, deadlineAt := some (t0 + (s.specOf (s.job j) k b).commitEnd),
    relayAcked := h.earlyAck || !waits, unmirrored := !waits, earlyAck := false, relayLast := false, rerun := false,
    retracted := none, boundPassed := false, recovery := none, owed := [], abandoned := false,
    rate := some (s.rateOf j k) })

/-- Streams of an interrupted chunk whose intake the survivor holds or never waits for (R429, R446, R449). -/
def State.recoverable (s : State) (j k : Nat) : List Nat :=
  ((s.job j).cohort k).owed.filter (fun i =>
    match s.stream i with
    | some st => st.state == .live && (st.adm.source != .host || (match st.nextChunk with | some q => q.inBerth && q.bad == 0 | none => false))
    | none => false)

/-- T0 of an intake chunk that an interrupted step runs on (R28, R29, R30); `other` is that of a link-fed stream. -/
def Chunk.t0 (c : Chunk) (src : Source) (b other : Nat) : Nat :=
  match src with
  | .host => max c.arrived (b - gapLead)
  | .wharf => c.arrived
  | .link => other

/-- From T0 to the latest commit of an interrupted chunk in its recovery window: its first result word is in the host ring by
T0 + 2,600 µs, 8 µs after the commit (R31, R36, R446). -/
def recoveryNs : Nat := 2592000

/-- The interrupted chunk runs for the named streams, marked as a replay (R446, R448), with its staging tallies clear (R156). A run in the
recovery window has a deadline; one ahead of the next step (R449) has none. -/
def State.runInterrupted (s0 : State) (j k : Nat) (is : List Nat) (inWindow : Bool) : State :=
  let s := s0.clearStaging j k
  let h := (s.job j).cohort k
  let steps := is.filterMap (fun i => (s.stream i).map (fun st =>
    let q := st.nextChunk
    let r := s.stepOf j k h.bk h.seq st
    let g : Stepping × Option (List Byte) := match q with
      | some c => if c.inBerth ∧ c.bad = 0 then
          ({ r.1 with t0 := c.t0 st.adm.source h.bk r.1.t0, tag := c.tag, gap := false, final := c.endMark }, none) else r
      | none => r
    (i, { g.1 with replay := true }, g.2)))
  let t0 := if steps = [] then h.t0 else (steps.map (fun e => (s.job j).image.origin e.2.1.t0)).foldl max 0
  (s.stepAll j steps).modCohort j k (fun h => { h with
    phase := .computing, t0 := t0, deadlineAt := if inWindow then some (t0 + recoveryNs) else none,
    owed := h.owed.filter (fun i => !is.contains i) })

/-! ## Commit -/

/-- No command of a job is queued or running. -/
def State.idleJob (s : State) (j : Nat) : Bool :=
  (coresOf (partOfJob j)).all (fun c => !(s.core c).running.any (fun r => r.job == j) &&
    [0, 1, 2, 3].all (fun q => !((s.core c).queue q).any (fun e => e.job == j)))

/-- A cohort's chunk may commit (R36, R576, R578): its commands, checks and tokens allow. -/
def State.commitReady (s : State) (j k : Nat) : Bool :=
  let b := s.job j
  let h := b.cohort k
  let alone := !b.cohorts.any (fun e => e.1 != k && e.2.phase == .computing)
  let group := (s.checkGroup j).filter (fun g => g == j || (((s.job g).cohort k).phase == .computing && ((s.job g).cohort k).seq == h.seq))
  h.phase == .computing && !h.tokensDue.any (fun e => e.1 == h.seq) && (!alone || s.idleJob j) &&
  group.all (fun g => !s.checksAhead g k &&
    (s.check (partOfJob j)).checks.all (fun e => !(e.job == g && e.cohort == k) || e.passed))

/-- The first lock of a cohort that its task did not leave as found (R305). -/
def State.lockLeft (s : State) (j k : Nat) : Option (Nat × Nat) :=
  (coresOf (partOfJob j)).findSome? (fun c => ((s.core c).locks.find? (fun e =>
    e.2.valid && e.2.owner == j && e.2.cohort == k && !e.2.asFound)).map (fun e => (c, e.1)))

/-- A stream's row becomes FREE at the commit that ends its last chunk (R231); its KV extents and bindings go (R484). -/
def State.freeStreamRow (s : State) (j i : Nat) : State :=
  match s.stream i with
  | none => s
  | some st => ((s.setRow j st.adm.row rowFreeSt 0 noEnd).freeRow j st.adm.row).modStream i (fun t => { t with binding := none })

/-- Commands that wait for a stream that has ended are answered: closes with its last sequence, others as illegal. -/
def State.answerEnded (s : State) (i : Nat) (handle : Word) (seq : Nat) : State :=
  let of (w : Wait) : Option Bool := match w.kind with
    | .commit _ _ _ (.close n _) => if n = i then some true else none
    | .commit _ _ _ (.pause n) => if n = i then some false else none
    | .commit _ _ _ (.resume n) => if n = i then some false else none
    | .commit _ _ _ (.bind n _) => if n = i then some false else none
    | _ => none
  s.answerWaits (fun w => (of w).isSome) (fun w =>
    if of w = some true then (St.ok, 0, [handle, BitVec.ofNat 32 seq]) else (St.wrongState, 0, []))

/-- Streams whose last chunk this commit ends (R522, R529). A stream that was PAUSED ends without a record. -/
def State.endChunk (s : State) (j k : Nat) : State :=
  s.each (s.streamsIn j k) (fun s i =>
    match s.stream i with
    | none => s
    | some st =>
      match st.stepping with
      | some g =>
        if g.final then
          let s1 := (s.freeStreamRow j i).answerEnded i st.adm.handle g.seq
          if st.counts g ∧ st.adm.gapLimit ≤ st.gapRun then
            s1.faultEvent Cause.intakeStall (some (partOfJob j)) (some j) 0 { handle := st.adm.handle }
          else s1
        else
          let w := s.rowEntry j st.adm.row
          if bits w 10 10 ≠ 0 then s.setRow j st.adm.row (bits w 30 2) 0 (bits w 0 10) else s
      | none =>
        if st.state = .closing then
          ((s.freeStreamRow j i).answerEnded i st.adm.handle ((st.nextSeq + 65535) % 65536)).dropStream i
        else s)

/-- The state marks of a link-fed chunk (R728): each row's table word is written; a paused row steps no more, an ended one, marked FREE or
with its END_STEP, has had its last chunk (R231). -/
def State.applyMarks (s : State) (j k : Nat) : State :=
  let ms := ((s.job j).cohort k).marks
  let s1 := s.each ms (fun s m =>
    let st := bits m.2 30 2
    let s2 := s.setRow j m.1 st (bits m.2 10 10) (bits m.2 0 10)
    s2.each (s.streamsIn j k) (fun s i => s.modStream i (fun v =>
      if v.adm.row ≠ m.1 ∨ v.state = .opening ∨ v.state = .closing then v
      else if st = rowPaused then { v with state := .paused, planned := .paused, stepping := none }
      else if st = rowFreeSt ∨ (st = rowLive ∧ bits m.2 0 10 ≠ noEnd) then
        { v with state := .closing, planned := .closing, stepping := v.stepping.map (fun g => { g with final := true }) }
      else if st = rowLive then { v with state := .live, planned := .live }
      else v)))
  s1.modCohort j k (fun h => { h with marks := [] })

/-- Slip buffers whose cohort has no stream bound to the wharf any more go. -/
def State.trimBufs (s : State) (j k : Nat) : State :=
  let used (n : Nat) : Bool :=
    (s.streamsIn j k).any (fun i => match (s.stream i).bind (·.binding) with | some b => b.wharf == n | none => false) ||
    s.pair.mirror.any (fun e => e.2.valid && (match e.2.stream with
      | some st => st.adm.job == j && swapCohort (s.job j).own st.adm.cohort == k && (match st.binding with | some b => b.wharf == n | none => false)
      | none => false))
  { s with wharves := Table.mapV {} s.wharves (fun n w =>
      if used n then w else { w with bufs := w.bufs.filter (fun e => e.1 != bufKey j k) }) }

/-- Put one accepted change in force and answer its command (R23, R24). A close is answered when its stream has ended. -/
def State.applyChange (s : State) (c : Cmd) (j k : Nat) : Change → State
  | .openRow i =>
    match s.stream i with
    | none => s.reply c St.wrongState 0 []
    | some st =>
      let s1 := (s.modStream i (fun t => { t with state := .live })).setRow j st.adm.row rowLive st.adm.startStep noEnd
      let s2 := if (s.job j).reducedTest then s1.enterReduced i else s1
      { s2 with gens := Table.put 0 s2.gens i (bits st.adm.handle.toNat 0 6) }.reply c St.ok 0 (s2.openWords st)
  | .pause i =>
    match s.stream i with
    | none => s.reply c St.wrongState 0 []
    | some st =>
      let w := s.rowEntry j st.adm.row
      ((s.modStream i (fun t => { t with state := .paused })).setRow j st.adm.row rowPaused (bits w 10 10) (bits w 0 10)).reply
        c St.ok 0 [st.adm.handle, BitVec.ofNat 32 st.nextSeq]
  | .resume i =>
    match s.stream i with
    | none => s.reply c St.wrongState 0 []
    | some st =>
      let b := s.nextBoundary (s.job j) k s.time.now
      ((s.modStream i (fun t => { t with state := .live })).setRow j st.adm.row rowLive 0 noEnd).reply
        c St.ok 0 [st.adm.handle, BitVec.ofNat 32 st.nextSeq, lo32 b, hi32 b]
  | .close i e =>
    match s.stream i with
    | none => s
    | some st =>
      let last := if st.state = .paused then noEnd else (s.job j).image.shape.endStep e
      (s.modStream i (fun t => { t with endStep := some last })).setRowEnd j st.adm.row last
  | .bind i b =>
    match s.stream i with
    | none => s.reply c St.wrongState 0 []
    | some st => ((s.applyBind i b).trimBufs j k).reply c St.ok 0 [st.adm.handle]
  | .cls bulk => (s.modJob j (fun x => { x with bulk := bulk, classPend := none })).reply c St.ok 0 []
  | .steer t v =>
    let old := Table.look {} (s.job j).steer t
    let s1 := s.modJob j (fun x => { x with steer := Table.put {} x.steer t v })
    let s2 := if old.enable ∧ !v.enable ∧ v.onDisable then
        { s1 with steering := Table.upd {} s1.steering (j * 128 + t) (fun r =>
          { r with modelScales := true, twinScales := s.servedCohorts.any (fun e => e.1 == j && (s.job j).own ≤ e.2) }) }
      else s1
    s2.reply c St.ok 0 []
  | .weir p weir link rate burst => (s.applyWeir p weir link rate burst).reply c St.ok 0 []
  | .rate _ => s

/-- A change that waits for this commit. -/
def Wait.dueAt (w : Wait) (j k : Nat) : Option Change :=
  match w.kind with
  | .commit part job cohort c =>
    let mine := match job with
      | some x => x == j && (match cohort with | some y => y == k | none => true)
      | none => optIs part (partOfJob j)
    match c with
    | .rate _ => none
    | _ => if mine then some c else none
  | _ => none

/-- A close keeps its command in progress. -/
def Change.stays : Change → Bool
  | .close .. => true
  | _ => false

/-- Every accepted change of this cohort takes effect, in the order of acceptance (R545). -/
def State.applyChanges (s : State) (j k : Nat) : State :=
  let due := s.waits.filterMap (fun w => (w.dueAt j k).map (fun c => (w, c)))
  { s with waits := s.waits.filter (fun w => match w.dueAt j k with | some c => c.stays | none => true) }.each due
    (fun s e => s.applyChange e.1.cmd j k e.2)

/-- The check rate that a partition is to have (R566, R588): the device rate, or the partition's RATE_MAX, where it is higher, while a
core of it is SUSPECT. -/
def State.targetRate (s : State) (p : Nat) : Nat :=
  if (coresOf p).any (fun c => (s.healthOf c).state == 1) then
    max s.integ.devRate (s.rateMax p)
  else s.integ.devRate

/-- Every partition has its rate, but for those with a RUNNING job. -/
def State.ratesSettled (s : State) : Bool :=
  (List.range 12).all (fun p => (s.jobsIn p .running).isEmpty || (s.check p).rate == s.targetRate p)

/-- Rates of partitions without a RUNNING job follow at once; TEST_CHECK_RATE is answered once every partition has followed. -/
def State.settleRates (s : State) : State :=
  let s1 := s.each (List.range 12) (fun s p =>
    if (s.jobsIn p .running).isEmpty ∧ (s.check p).rate ≠ s.targetRate p then s.modCheck p (fun q => { q with rate := s.targetRate p }) else s)
  if s1.ratesSettled then
    s1.answerWaits (fun w => match w.kind with | .commit _ _ _ (.rate _) => true | _ => false) (fun _ => (St.ok, 0, []))
  else s1

/-- A commit on a partition brings its rate in force (R566). -/
def State.commitRate (s : State) (p : Nat) : State := (s.modCheck p (fun q => { q with rate := s.targetRate p })).settleRates

/-- The copies that a commit makes for telemetry (R563, R677). -/
def State.commitCopies (s : State) (j : Nat) : State :=
  let img := (s.job j).image
  let st := ((List.range img.tensors.length).zip img.tensors).filter (fun e => e.2.tallies)
  let steer := st.foldl (fun t e => Table.put [] t e.1 (s.steerReport j e.1 e.2)) []
  let pools := ((List.range img.kv.length).zip img.kv).foldl (fun t e =>
    let p := s.pool (poolKey j e.1)
    Table.put [] t e.1 [lo32 p.free.length, p.drops, p.rebuilds, p.reduced]) []
  s.modTele j (fun t => { t with copiedAt := s.time.now, steerCopy := steer, poolCopy := pools })

/-- A missed deadline (R36, R587): counted, reported, and both cores SUSPECT unless a re-run or a retraction delayed the chunk. -/
def State.deadline (s : State) (j k : Nat) (h : Cohort) : State :=
  if (match h.deadlineAt with | some t => decide (s.time.now ≤ t) | none => true) then s
  else
    let p := partOfJob j
    let s1 := (s.modTele j (fun t => { t with misses := t.misses + 1 })).faultEvent Cause.deadlineMiss (some p) (some j) k {}
    if h.rerun ∨ h.retracted.isSome then s1 else s1.each (coresOf p) (fun s c => s.markHealth c 2 1)

/-- CHUNK_ACK to every chip that sent retained transfers for the chunk (R418). -/
def State.ackChunk (s : State) (k : Nat) (h : Cohort) : State :=
  s.each (h.retainedFrom.filter (fun e => e.1 == h.seq)) (fun s e => s.sendTo e.2 [.chunkAck e.2 s.time.chip k h.seq])

/-- The output samples of a committed chunk go to the TX rings (R491). -/
def State.fillTx (s : State) (j k chunk : Nat) (is : List Nat) : State :=
  is.foldl (fun s i =>
    match (s.stream i).bind (·.binding) with
    | none => s
    | some v =>
      let d := s.draw
      d.2.modWharf v.wharf (fun w => { w with tx := w.tx.map (fun c =>
        if c.job = j ∧ c.cohort = k ∧ c.chunk = chunk then
          { c with frames := some (c.frames.getD [] ++ (if v.txCount = 0 then [] else [{ draw := d.1, first := v.txFirst, count := v.txCount }])) }
        else c) })) s

/-- `EVT_RETRACT` for a re-run that met its deadline (R462). -/
def State.retractEvent (s : State) (j k : Nat) (h : Cohort) : State :=
  match h.retracted with
  | some (reason, depth, src) =>
    if h.boundPassed then s
    else s.event Ev.retract (some (partOfJob j)) (some j) reason depth [pack [(k, 16), (h.seq, 0)], BitVec.ofNat 32 src]
  | none => s

/-- The commit of a cohort's chunk (R23, R37, R418, R432). -/
def State.commitChunk (s : State) (j k : Nat) : State :=
  let h := (s.job j).cohort k
  let p := partOfJob j
  let s1 := s.applyMarks j k
  let stepped := (s1.streamsIn j k).filterMap (fun i => (s1.stream i).bind (fun st => st.stepping.map (fun g => (i, st.adm.row, g.seq))))
  let s2 := s1.each stepped (fun s e => s.modStream e.1 (fun t => { t with lastSeq := e.2.2 }))
  let s3 := (s2.fillTx j k h.chunk (stepped.map (·.1))).kvCommit j k (stepped.map (fun e => (e.1, e.2.1))) [] []
  let s4 := (((s3.endChunk j k).steerAtCommit j k).applyChanges j k).trimBufs j k
  let live := (s4.streamsIn j k).filterMap (fun i => (s4.stream i).bind (fun st => if st.state = .live then some st.adm.row else none))
  let all := (s4.streamsIn j k).filterMap (fun i => (s4.stream i).map (fun st => (i, st.adm.row)))
  let s5 := (s4.kvCommit j k [] live all).commitRate p
  let s6 := (s5.modTele j (fun t => { t with committed := t.committed + 1 })).commitCopies j
  let s7 := ((s6.deadline j k h).ackChunk k h).retractEvent j k h
  let s8 := s7.freeChecks j (fun n => n == k)
  let m := s8.mirrors && !(s8.streamsIn j k).isEmpty
  let s9 := s8.modCohort j k (fun h => { h with
    phase := .committed, commitAt := s.time.now, recordsDue := !stepped.isEmpty, rate := some (s8.check p).rate,
    retainedFrom := h.retainedFrom.filter (fun e => e.1 != h.seq), tokensDue := h.tokensDue.filter (fun e => e.1 != h.seq),
    tokensHeld := h.tokensHeld.filter (fun e => e.1 != h.seq),
    mirrorDue := if m then some (h.t0 + 900000) else none, recovery := none })
  if m then s9.sendMirror j k h.seq 0 (some (h.t0 + 900000)) else s9

/-- The commit of a task of a job that serves no cohort (R342). -/
def State.commitTask (s : State) (j : Nat) : State :=
  ((s.applyChanges j 0).commitRate (partOfJob j)).commitCopies j

/-! ## Records -/

/-- The result records of a committed chunk (R524, R525), in the order of the streams' indices. -/
def State.writeRecords (s : State) (j k : Nat) (payloads : List (Nat × List Byte)) : State :=
  let late := ((s.job j).cohort k).boundPassed
  let bytes := (s.job j).image.shape.resultBytes
  let is := (s.streamsIn j k).filter (fun i => ((s.stream i).bind (·.stepping)).isSome)
  let s1 := s.each is (fun s i =>
    match (s.stream i).bind (·.stepping) with
    | some g => s.record i St.ok { g with rerun := late } ((((payloads.find? (fun e => e.1 == i)).map (·.2)).getD []).take bytes)
    | none => s)
  let s2 := s1.fireVectors is
  (s2.each is (fun s i =>
    match (s.stream i).bind (·.stepping) with
    | some g => if g.final then s.dropStream i else s.modStream i (fun t => { t with stepping := none })
    | none => s)).modCohort j k (fun h => { h with recordsDue := false })

/-- At the bound of a retracted chunk that has not committed, each stream's record says so (R463). -/
def State.retractedRecords (s : State) (j k : Nat) : State :=
  let is := (s.streamsIn j k).filter (fun i => ((s.stream i).bind (·.stepping)).isSome)
  let s1 := s.each is (fun s i =>
    match (s.stream i).bind (·.stepping) with
    | some g => s.record i St.retracted { g with final := false } []
    | none => s)
  let s2 := { s1 with pair := { s1.pair with retractLate := satAdd s1.pair.retractLate 1 } }.fireVectors is
  (s2.faultEvent Cause.retractLate (some (partOfJob j)) (some j) k {}).modCohort j k (fun h => { h with boundPassed := true })

end Sys2Proof.Machine
end

