-- ==== Sys2Proof/Machine/Chunks.lean ====
section
/-! DEFINITION. Meanings of the chunk steps (01_architecture.md, 14_streams_and_host.md) and of the commands that a commit puts in
force for tensors and checks. -/

namespace Sys2Proof.Machine

/-- The step at a boundary belongs to the taker of a handover, which holds the cohort's last mirror (R453). -/
def State.stepMoves (s : State) (j k at_ : Nat) : Bool :=
  match s.pair.handover with
  | some h => h.moving.contains (j, k) && decide (h.at_ ≤ at_) && ((s.job j).cohort k).mirrorDue.isNone
  | none => false

/-- COHORT_BOUNDARY (R40): the next step of a cohort begins at its compiled time, once the step before it has committed and its records
are written. Intake of an interrupted chunk that came after its window runs first (R449). -/
def execCohortBoundary (job : Fin 96) (cohort : Fin 32) (s : State) : Outcome :=
  let b := s.job job
  let h := b.cohort cohort
  let at_ := s.boundary b cohort s.time.now
  if b.state ≠ .running ∨ b.period = 0 ∨ (b.own ≤ cohort.val ∧ s.streamsIn job cohort = []) then .next s
  else if (h.phase ≠ .idle ∧ h.phase ≠ .committed) ∨ h.recordsDue ∨ at_ ≤ h.bk ∨ at_ < b.startedAt then .next s
  else
    let back := s.recoverable job cohort
    if s.stepMoves job cohort at_ then .next s
    else if back ≠ [] then .next (s.runInterrupted job cohort back false) else .next (s.openChunk job cohort at_)

/-- COMPUTE_START (R31, R32): 50 µs after T0, with the relay acknowledged or given up. The first step rebuilds the spans that were
RECOMPUTE (R267). -/
def execComputeStart (job : Fin 96) (cohort : Fin 32) (s : State) : Outcome :=
  let h := (s.job job).cohort cohort
  if (s.job job).state = .running ∧ h.phase = .waitRelay ∧ (h.relayAcked ∨ h.unmirrored) ∧ h.t0 + relayNs ≤ s.time.now then
    let rows := (s.streamsIn job cohort).filterMap (fun i => (s.stream i).bind (fun st => st.stepping.map (fun _ => (i, st.adm.row))))
    .next ((s.modCohort job cohort (fun h => { h with phase := .computing })).rebuildDue job rows)
  else .next s

/-- RELAY_ACK_TIMEOUT (R32, R428): the chunk runs unmirrored. -/
def execRelayAckTimeout (job : Fin 96) (cohort : Fin 32) (s : State) : Outcome :=
  let h := (s.job job).cohort cohort
  if h.phase = .waitRelay ∧ !h.relayAcked ∧ !h.unmirrored ∧ h.t0 + relayNs ≤ s.time.now then
    let s1 := s.modCohort job cohort (fun h => { h with unmirrored := true })
    .next ({ s1 with pair := { s1.pair with relayMiss := satAdd s1.pair.relayMiss 1 } }.mirrorLost 1 [pack [(cohort.val, 16), (h.seq, 0)]])
  else .next s

/-- CHUNK_COMMIT (R36, R37, R305): once the chunk's last command, its checks, tokens and locks allow. -/
def execChunkCommit (job : Fin 96) (cohort : Fin 32) (s : State) : Outcome :=
  let b := s.job job
  if b.state ≠ .running then .next s
  else if b.own = 0 ∧ cohort.val = 0 then (if s.idleJob job then .next (s.commitTask job) else .next s)
  else if !s.commitReady job cohort then .next s
  else
    match s.lockLeft job cohort with
    | some (c, i) => .next (s.killJob job (some Cause.lockLeft) i { core := some c } false)
    | none => .next (s.commitChunk job cohort)

/-- RESULT_RECORD_WRITE (R524): the records of a committed chunk. -/
def execResultRecordWrite (job : Fin 96) (cohort : Fin 32) (payloads : List (Nat × List Byte)) (s : State) : Outcome :=
  if ((s.job job).cohort cohort).recordsDue then .next (s.writeRecords job cohort payloads) else .next s

/-- RETRACTED_RECORD_AT_BOUND (R463): a re-run of the last stage has not committed at the schedule's bound. -/
def execRetractedRecordAtBound (job : Fin 96) (cohort : Fin 32) (s : State) : Outcome :=
  let b := s.job job
  let h := b.cohort cohort
  if b.state = .running ∧ h.phase = .computing ∧ h.rerun ∧ !h.boundPassed ∧ b.image.downstream = [] ∧
      h.t0 + b.image.boundUs * 1000 ≤ s.time.now then .next (s.retractedRecords job cohort)
  else .next s

/-- RECOVERY_WINDOW (R446): a survivor runs an interrupted chunk in its cohort's window, after the restore. -/
def execRecoveryWindow (job : Fin 96) (cohort : Fin 32) (s : State) : Outcome :=
  let h := (s.job job).cohort cohort
  match h.recovery with
  | none => .next s
  | some t =>
    if s.time.now < t ∨ h.phase ≠ .idle ∨ s.pair.restoreAt.isSome ∨ (s.job job).state ≠ .running then .next s
    else .next (s.runInterrupted job cohort (s.recoverable job cohort) true)

/-- SCALE_STEER_SET (R157, R158): in force at the next commit of cohort 0. -/
def execScaleSteerSet (via : Via) (s : State) : Outcome :=
  .next (s.command via 0x0403 (fun _ => true) (fun s c =>
    let j := c.job
    let ix := c.f 0 0 16
    let b := s.job j
    let v : Steer := {
      enable := bitAt (c.p 0) 31, downEn := bitAt (c.p 0) 30, onDisable := bitAt (c.p 0) 29, targetLog2 := c.f 1 24 5,
      maxSteps := c.f 1 16 3, minSamplesLog2 := c.f 1 8 5, minStreams := c.f 2 16 11, windowChunks := c.f 2 0 13 }
    let able := match b.image.tensors[ix]? with
      | some t => !v.enable || (t.tallies && !t.bashaba && !t.weight)
      | none => false
    Verdict.need (firstBad [c.stray [0xE000FFFF, 0x1F071F00, 0x07FF1FFF],
      req (8 ≤ v.targetLog2 && v.targetLog2 ≤ 16 && 1 ≤ v.maxSteps && v.maxSteps ≤ 4 && 20 ≤ v.minSamplesLog2 && v.minSamplesLog2 ≤ 30) 9,
      req (64 ≤ v.minStreams && v.minStreams ≤ 1024 && 16 ≤ v.windowChunks && v.windowChunks ≤ 4096) 10]) <|
    Verdict.unless (b.state == .running || b.state == .parked) St.wrongState b.state.code <|
    Verdict.unless able St.badParam 8 <|
    .yes (s.later c (.commit (some (partOfJob j)) (some j) (some 0) (.steer ix v)))))

/-- TEST_CHECK_RATE (R566): a rate that the RUNNING and PARKED images allow, in force on each running partition at its next commit. -/
def execTestCheckRate (via : Via) (s : State) : Outcome :=
  .next (s.command via 0x0702 (fun _ => true) (fun s c =>
    let r := c.f 0 0 3
    Verdict.need (firstBad [c.stray [7], req (r ≤ 4) 8]) <|
    Verdict.unless ((List.range 12).all (fun p => (s.live p).all (fun j => r ≤ (s.job j).image.rateMax))) St.denied 4 <|
    let s1 := { s with integ := { s.integ with devRate := r } }
    .yes (s1.later c (.commit none none none (.rate r))).settleRates))

end Sys2Proof.Machine
end

