-- ==== Sys2Proof/Machine/CcOps.lean ====
section
/-! DEFINITION. The control core (02_core_and_scratchpad.md R42 to R46): RV64IMC in machine mode, its memory map, the queue
windows, the summary FIFO head (R198, R199), the scan gate (R594). -/

namespace Sys2Proof.Machine

/-! ## Instructions -/

/-- An integer operation of RV64IM. -/
inductive Alu where
  | add | sub | sll | slt | sltu | xor | srl | sra | or | and
  | mul | mulh | mulhsu | mulhu | div | divu | rem | remu
  deriving DecidableEq, Repr

/-- A decoded control-core instruction. Immediates are sign-extended 64-bit values; `w` marks the 32-bit forms. -/
inductive Rv where
  | lui (rd : Nat) (imm : DWord)
  | auipc (rd : Nat) (imm : DWord)
  | jal (rd : Nat) (off : DWord)
  | jalr (rd rs : Nat) (off : DWord)
  | branch (f3 rs1 rs2 : Nat) (off : DWord)
  | load (f3 rd rs : Nat) (off : DWord)
  | store (f3 rs1 rs2 : Nat) (off : DWord)
  | opImm (op : Alu) (w : Bool) (rd rs : Nat) (imm : DWord)
  | op (op : Alu) (w : Bool) (rd rs1 rs2 : Nat)
  | fence
  deriving DecidableEq, Repr

/-- A signed field of `n` bits as a 64-bit value. -/
def simm (n w : Nat) : DWord := BitVec.ofInt 64 (signed n (w % 2 ^ n))

/-- The operation of a register-register funct3, by funct7 (0, 0x20, 1). -/
def aluOf (f3 f7 : Nat) : Option Alu :=
  match f7, f3 with
  | 0, 0 => some .add | 0, 1 => some .sll | 0, 2 => some .slt | 0, 3 => some .sltu
  | 0, 4 => some .xor | 0, 5 => some .srl | 0, 6 => some .or | 0, 7 => some .and
  | 0x20, 0 => some .sub | 0x20, 5 => some .sra
  | 1, 0 => some .mul | 1, 1 => some .mulh | 1, 2 => some .mulhsu | 1, 3 => some .mulhu
  | 1, 4 => some .div | 1, 5 => some .divu | 1, 6 => some .rem | 1, 7 => some .remu
  | _, _ => none

/-- Whether an operation has a 32-bit form. -/
def aluHasW : Alu → Bool
  | .add | .sub | .sll | .srl | .sra | .mul | .div | .divu | .rem | .remu => true
  | _ => false

/-- Decode a 32-bit instruction; `none` is illegal (R43). -/
def rvDecode (i : Nat) : Option Rv :=
  let rd := bits i 7 5
  let f3 := bits i 12 3
  let rs1 := bits i 15 5
  let rs2 := bits i 20 5
  let f7 := bits i 25 7
  let imm := simm 12 (bits i 20 12)
  match bits i 0 7 with
  | 0x37 => some (.lui rd (simm 32 (bits i 12 20 * 4096)))
  | 0x17 => some (.auipc rd (simm 32 (bits i 12 20 * 4096)))
  | 0x6F => some (.jal rd (simm 21 (bits i 31 1 * 2 ^ 20 + bits i 12 8 * 2 ^ 12 + bits i 20 1 * 2 ^ 11 + bits i 21 10 * 2)))
  | 0x67 => if f3 = 0 then some (.jalr rd rs1 imm) else none
  | 0x63 =>
    if f3 = 2 ∨ f3 = 3 then none
    else some (.branch f3 rs1 rs2
      (simm 13 (bits i 31 1 * 2 ^ 12 + bits i 7 1 * 2 ^ 11 + bits i 25 6 * 2 ^ 5 + bits i 8 4 * 2)))
  | 0x03 => if f3 = 7 then none else some (.load f3 rd rs1 imm)
  | 0x23 => if 4 ≤ f3 then none else some (.store f3 rs1 rs2 (simm 12 (f7 * 32 + rd)))
  | 0x13 =>
    match f3 with
    | 1 => if bits i 26 6 = 0 then some (.opImm .sll false rd rs1 (BitVec.ofNat 64 (bits i 20 6))) else none
    | 5 =>
      if bits i 26 6 = 0 then some (.opImm .srl false rd rs1 (BitVec.ofNat 64 (bits i 20 6)))
      else if bits i 26 6 = 0x10 then some (.opImm .sra false rd rs1 (BitVec.ofNat 64 (bits i 20 6)))
      else none
    | _ => (aluOf f3 0).map (fun a => .opImm a false rd rs1 imm)
  | 0x1B =>
    match f3 with
    | 0 => some (.opImm .add true rd rs1 imm)
    | 1 => if f7 = 0 then some (.opImm .sll true rd rs1 (BitVec.ofNat 64 rs2)) else none
    | 5 =>
      if f7 = 0 then some (.opImm .srl true rd rs1 (BitVec.ofNat 64 rs2))
      else if f7 = 0x20 then some (.opImm .sra true rd rs1 (BitVec.ofNat 64 rs2))
      else none
    | _ => none
  | 0x33 => (aluOf f3 f7).map (fun a => .op a false rd rs1 rs2)
  | 0x3B =>
    match aluOf f3 f7 with
    | some a => if aluHasW a then some (.op a true rd rs1 rs2) else none
    | none => none
  | 0x0F => if f3 = 0 then some .fence else none
  | _ => none

/-- Decode a 16-bit instruction of the C extension for RV64 without floating point; `none` is illegal. -/
def rvcDecode (i : Nat) : Option Rv :=
  let f3 := bits i 13 3
  let rd := bits i 7 5
  let r2 := bits i 2 5
  let rdp := 8 + bits i 2 3
  let rsp := 8 + bits i 7 3
  let imm6 := simm 6 (bits i 12 1 * 32 + bits i 2 5)
  let sh := BitVec.ofNat 64 (bits i 12 1 * 32 + bits i 2 5)
  let lw := BitVec.ofNat 64 (bits i 10 3 * 8 + bits i 6 1 * 4 + bits i 5 1 * 64)
  let ld := BitVec.ofNat 64 (bits i 10 3 * 8 + bits i 5 2 * 64)
  match bits i 0 2, f3 with
  | 0, 0 =>
    let n := bits i 11 2 * 16 + bits i 7 4 * 64 + bits i 6 1 * 4 + bits i 5 1 * 8
    if n = 0 then none else some (.opImm .add false rdp 2 (BitVec.ofNat 64 n))
  | 0, 2 => some (.load 2 rdp rsp lw)
  | 0, 3 => some (.load 3 rdp rsp ld)
  | 0, 6 => some (.store 2 rsp rdp lw)
  | 0, 7 => some (.store 3 rsp rdp ld)
  | 1, 0 => some (.opImm .add false rd rd imm6)
  | 1, 1 => if rd = 0 then none else some (.opImm .add true rd rd imm6)
  | 1, 2 => some (.opImm .add false rd 0 imm6)
  | 1, 3 =>
    if rd = 2 then
      let n := simm 10 (bits i 12 1 * 512 + bits i 6 1 * 16 + bits i 5 1 * 64 + bits i 3 2 * 128 + bits i 2 1 * 32)
      if n = 0 then none else some (.opImm .add false 2 2 n)
    else
      let n := simm 18 ((bits i 12 1 * 32 + bits i 2 5) * 4096)
      if n = 0 then none else some (.lui rd n)
  | 1, 4 =>
    match bits i 10 2 with
    | 0 => some (.opImm .srl false rsp rsp sh)
    | 1 => some (.opImm .sra false rsp rsp sh)
    | 2 => some (.opImm .and false rsp rsp imm6)
    | _ =>
      match bits i 12 1, bits i 5 2 with
      | 0, 0 => some (.op .sub false rsp rsp rdp)
      | 0, 1 => some (.op .xor false rsp rsp rdp)
      | 0, 2 => some (.op .or false rsp rsp rdp)
      | 0, _ => some (.op .and false rsp rsp rdp)
      | _, 0 => some (.op .sub true rsp rsp rdp)
      | _, 1 => some (.op .add true rsp rsp rdp)
      | _, _ => none
  | 1, 5 =>
    some (.jal 0 (simm 12 (bits i 12 1 * 2048 + bits i 11 1 * 16 + bits i 9 2 * 256 + bits i 8 1 * 1024 + bits i 7 1 * 64 +
      bits i 6 1 * 128 + bits i 3 3 * 2 + bits i 2 1 * 32)))
  | 1, f =>
    let off := simm 9 (bits i 12 1 * 256 + bits i 10 2 * 8 + bits i 5 2 * 64 + bits i 3 2 * 2 + bits i 2 1 * 32)
    some (.branch (if f = 6 then 0 else 1) rsp 0 off)
  | 2, 0 => some (.opImm .sll false rd rd sh)
  | 2, 2 => if rd = 0 then none else
      some (.load 2 rd 2 (BitVec.ofNat 64 (bits i 12 1 * 32 + bits i 4 3 * 4 + bits i 2 2 * 64)))
  | 2, 3 => if rd = 0 then none else
      some (.load 3 rd 2 (BitVec.ofNat 64 (bits i 12 1 * 32 + bits i 5 2 * 8 + bits i 2 3 * 64)))
  | 2, 4 =>
    if bits i 12 1 = 0 then
      if r2 = 0 then (if rd = 0 then none else some (.jalr 0 rd 0)) else some (.op .add false rd 0 r2)
    else if r2 = 0 then (if rd = 0 then none else some (.jalr 1 rd 0))
    else some (.op .add false rd rd r2)
  | 2, 6 => some (.store 2 2 r2 (BitVec.ofNat 64 (bits i 9 4 * 4 + bits i 7 2 * 64)))
  | 2, 7 => some (.store 3 2 r2 (BitVec.ofNat 64 (bits i 10 3 * 8 + bits i 7 3 * 64)))
  | _, _ => none

/-! ## Arithmetic -/

/-- A 32-bit result sign-extended. -/
def sextW (n : Nat) : DWord := simm 32 n

/-- Signed division and remainder with the corner values of RV64IM: division by zero gives −1 and the dividend. -/
def sdiv (a b : Int) : Int := if b = 0 then -1 else a.tdiv b
def srem (a b : Int) : Int := if b = 0 then a else a.tmod b

/-- An operation on values of `n` bits (32 or 64) given as naturals; the result is cut to n bits by the caller. -/
def aluNat (n : Nat) (op : Alu) (a b : Nat) : Int :=
  let sa := signed n a
  let sb := signed n b
  let sh := b % n
  match op with
  | .add => a + b
  | .sub => (a : Int) - b
  | .sll => a * 2 ^ sh
  | .slt => if sa < sb then 1 else 0
  | .sltu => if a < b then 1 else 0
  | .xor => (a ^^^ b : Nat)
  | .srl => (a / 2 ^ sh : Nat)
  | .sra => sa / 2 ^ sh
  | .or => (a ||| b : Nat)
  | .and => (a &&& b : Nat)
  | .mul => a * b
  | .mulh => sa * sb / 2 ^ n
  | .mulhsu => sa * b / 2 ^ n
  | .mulhu => (a * b / 2 ^ n : Nat)
  | .div => sdiv sa sb
  | .divu => if b = 0 then -1 else (a / b : Nat)
  | .rem => srem sa sb
  | .remu => if b = 0 then a else (a % b : Nat)

/-- The 64-bit result of an operation. -/
def aluRun (op : Alu) (w : Bool) (a b : DWord) : DWord :=
  if w then BitVec.ofInt 64 (signed 32 ((aluNat 32 op (a.toNat % 2 ^ 32) (b.toNat % 2 ^ 32)) % 2 ^ 32).toNat)
  else BitVec.ofInt 64 (aluNat 64 op a.toNat b.toNat)

/-- A branch condition. -/
def branchTaken (f3 : Nat) (a b : DWord) : Bool :=
  match f3 with
  | 0 => a == b
  | 1 => a != b
  | 4 => decide (signed 64 a.toNat < signed 64 b.toNat)
  | 5 => decide (signed 64 b.toNat ≤ signed 64 a.toNat)
  | 6 => decide (a.toNat < b.toNat)
  | _ => decide (b.toNat ≤ a.toNat)

/-- A loaded value of access size 2^(f3 mod 4) bytes, sign- or zero-extended (f3 ≥ 4). -/
def loadExtend (f3 v : Nat) : DWord :=
  if 4 ≤ f3 then BitVec.ofNat 64 v else simm (8 * 2 ^ (f3 % 4)) v

/-! ## Registers -/

/-- x0 reads 0 and discards writes. -/
def Cc.reg (c : Cc) (r : Nat) : DWord := if r = 0 then 0 else Table.look 0 c.x r
def Cc.setReg (c : Cc) (r : Nat) (v : DWord) : Cc := if r = 0 then c else { c with x := Table.put 0 c.x r v }

/-! ## Traps and queue windows -/

/-- A trap halts the control core and kills every job of the partition (R43, R735). -/
def State.ccTrap (s : State) (c : Nat) : State :=
  (s.modCore c (fun k => { k with cc := { k.cc with halted := true, trapped := true, stall := .none } })).killPartition (partOfCore c)
    Cause.ccTrap 0 { core := some c }

/-- Captured scalars of an enqueued VE_FLIGHT or VE_SETT (R195). -/
def captures (cc : Cc) (q : Nat) (ws : List Word) : List Word :=
  if q = 2 ∧ (dOp ws = 1 ∨ dOp ws = 2) then
    (List.range (if dOp ws = 1 then 4 else 1)).map (fun i => lo32 (cc.reg (bits (dw ws 14) (5 * i) 5)).toNat)
  else []

/-- The store to offset 0x38 of a window: enqueue, or stall while the queue is full (R44, R45); without a RUNNING job the
control core halts (R323). DESIGN CHOICE (log 135): an enqueued window is empty again, so words that no store writes are 0. -/
def State.enqueue (s : State) (c q : Nat) (ws : List Word) : State :=
  if (s.jobsIn (partOfCore c) .running).isEmpty then
    s.modCore c (fun k => { k with cc := { k.cc with halted := true } })
  else if 64 ≤ ((s.core c).queue q).length then
    s.modCore c (fun k => { k with cc := { k.cc with
      stall := .queue q,
      window := (List.range 16).foldl (fun t i => Table.put 0 t (q * 16 + i) (ws.getD i 0)) k.cc.window } })
  else
    s.modCore c (fun k =>
      let k1 := k.push q s.time.up { words := ws, caps := captures k.cc q ws }
      { k1 with cc := { k1.cc with window := k1.cc.window.filter (fun e => e.1 / 16 != q) } })

/-- The words that a window holds. -/
def Cc.windowWords (c : Cc) (q : Nat) : List Word := (List.range 16).map (fun i => Table.look 0 c.window (q * 16 + i))

/-! ## The summary FIFO head and the scan gate -/

/-- 64-bit word `w` of the record at the FIFO head; reading word 7 pops it (R198). -/
def Ve.readHead (v : Ve) (w : Nat) : Option (DWord × Ve) :=
  match v.fifo with
  | [] => none
  | r :: rest =>
    some (BitVec.ofNat 64 (join64 (r.getD (2 * w) 0) (r.getD (2 * w + 1) 0)), if w = 7 then { v with fifo := rest } else v)

/-- A read of the FIFO head into x`rd`, which stalls while the FIFO is empty (R199). -/
def CoreSt.popSummary (k : CoreSt) (up rd w : Nat) : CoreSt :=
  match k.ve.readHead w with
  | some (v, ve) => { k with ve := ve, cc := { (k.cc.setReg rd v) with stall := .none } }
  | none => { k with cc := { k.cc with stall := .summary rd w up } }

/-- The maintenance activity of a core's pass. -/
def passAct (c kind : Nat) : Nat := if kind = 2 then actBist c else actScan c (kind == 1)

/-- A pass of a core that may take a segment, and its place in the order of R596 and R694: forced, urgent, a host's, SUSPECT, then the
rest; among equals the oldest last pass. -/
def State.passRank (s : State) (c : Nat) : Option (Nat × Nat) :=
  let h := s.healthOf c
  match h.pass with
  | none => none
  | some kind =>
    let a := s.act (passAct c kind)
    if a.phase = .granted ∨ a.phase = .running then
      some (if a.level = 2 ∨ a.byHost then 0 else if a.level = 1 then 1 else if h.state = 1 then 2 else 3, h.lastA)
    else none

/-- The core that takes the next segment (R596). -/
def State.scanNext (s : State) : Option Nat :=
  ((List.range 24).foldl (fun (b : Option (Nat × Nat × Nat)) c =>
    match s.passRank c, b with
    | some r, none => some (c, r)
    | some r, some (d, q) => if r.1 < q.1 ∨ (r.1 = q.1 ∧ r.2 < q.2) then some (c, r) else some (d, q)
    | none, _ => b) none).map (·.1)

/-- The four queues of a core are empty and no command runs there. -/
def CoreSt.quietQueues (k : CoreSt) : Bool := [0, 1, 2, 3].all (fun q => (k.queue q).isEmpty) && k.running.isEmpty

/-- A segment is placed on a core: no other runs, the library is valid, the core comes next, its four queues are empty and no
command is running (R594, R596, R598, R606). -/
def State.segmentPlaced (s : State) (c : Nat) : Bool :=
  s.integ.libValid && s.integ.scanCore.isNone && s.scanNext == some c && (s.core c).quietQueues &&
  ((s.healthOf c).pass != some 1 || (s.live (partOfCore c)).isEmpty || s.pair.state == .yielded)

/-- The load of the scan gate: 0 at once, or a stall until the segment ends. -/
def State.scanGate (s : State) (c rd : Nat) : State :=
  if s.segmentPlaced c then
    let s1 := s.modAct (passAct c ((s.healthOf c).pass.getD 0)) (fun a => { a with phase := .running })
    { s1.modCore c (fun k => { k with cc := { k.cc with stall := .scan rd } }) with integ := { s1.integ with scanCore := some c } }
  else s.modCore c (fun k => { k with cc := k.cc.setReg rd 0 })

/-! ## Memory accesses -/

/-- Pound and offset of a window address. -/
def poundOf (a : Nat) : Option (Nat × Nat) :=
  if 0x10000000 ≤ a ∧ a < 0x18000000 then some ((a - 0x10000000) / 0x1000000, a % 0x1000000) else none

/-- A window access of the control core passes R61 for a job that runs in the partition. -/
def State.ccAllows (s : State) (c n : Nat) (write : Bool) (endb : Nat) : Bool :=
  let p := (s.core c).spad.pound n
  (s.jobsIn (partOfCore c) .running).any (fun j => p.allows j write endb)

/-- A window access that fails its check makes no access and kills the jobs for which the control core runs (R46, R62). -/
def State.ccPoundFault (s : State) (c : Nat) : State :=
  s.each (s.jobsIn (partOfCore c) .running) (fun s j => s.killJob j (some Cause.poundFault) 0 { core := some c } false)

/-- A load of `size` bytes at `a` into x`rd`. -/
def State.ccLoad (s : State) (c f3 rd a : Nat) : State :=
  let size := 2 ^ (f3 % 4)
  let k := s.core c
  if a % size ≠ 0 then s.ccTrap c
  else if a < 0x40000 then
    s.setCore c { k with cc := k.cc.setReg rd (loadExtend f3 (leNat (k.cc.mem.readN a size))) }
  else if 0x101000 ≤ a ∧ a < 0x101040 ∧ size = 8 then s.setCore c (k.popSummary s.time.up rd ((a - 0x101000) / 8))
  else if a = 0x101040 ∧ size = 8 then s.setCore c { k with cc := k.cc.setReg rd (BitVec.ofNat 64 k.ve.fifo.length) }
  else if 0x102000 ≤ a ∧ a < 0x102800 ∧ size = 8 then
    let l := k.lock ((a - 0x102000) / 8)
    s.setCore c { k with cc := k.cc.setReg rd (BitVec.ofNat 64 (join64 l.fill l.drain)) }
  else if a = 0x103000 ∧ size = 8 then s.setCore c { k with cc := k.cc.setReg rd (BitVec.ofNat 64 s.time.now) }
  else if a = 0x103100 ∧ size = 8 then s.scanGate c rd
  else
    match poundOf a with
    | some (n, o) =>
      if s.ccAllows c n false (o + size) then
        s.setCore c { k with cc := k.cc.setReg rd (loadExtend f3 (leNat (readPound k.spad n o size))) }
      else s.ccPoundFault c
    | none => s.ccTrap c

/-- A store of `size` bytes at `a`. An untagged store clears V of the barge it touches (R66). DESIGN CHOICE (log 135): a store to the
schedule time, the FIFO head or the lock counters, which are read only, is a trap, as is a fetch outside private memory
(`Cc.fetch`). -/
def State.ccStore (s : State) (c f3 a : Nat) (v : DWord) : State :=
  let size := 2 ^ (f3 % 4)
  let k := s.core c
  if a % size ≠ 0 then s.ccTrap c
  else if a < 0x40000 then
    s.setCore c { k with cc := { k.cc with mem := k.cc.mem.writeN a (leBytes size v.toNat) } }
  else if 0x100000 ≤ a ∧ a < 0x100100 then
    if size ≠ 8 then s.ccTrap c
    else
      let q := (a - 0x100000) / 64
      let i := a % 64 / 4
      let w := Table.put 0 (Table.put 0 k.cc.window (q * 16 + i) (lo32 v.toNat)) (q * 16 + i + 1) (hi32 v.toNat)
      let s1 := s.setCore c { k with cc := { k.cc with window := w } }
      if i = 14 then s1.enqueue c q ((s1.core c).cc.windowWords q) else s1
  else
    match poundOf a with
    | some (n, o) =>
      if s.ccAllows c n true (o + size) then
        s.setCore c { k with spad := writePound k.spad n o (leBytes size v.toNat) }
      else s.ccPoundFault c
    | none => s.ccTrap c

/-! ## One instruction (R42) -/

/-- Cycles of an instruction. -/
def rvCycles : Rv → Bool → Nat
  | .jal .., _ => 2
  | .jalr .., _ => 2
  | .branch .., taken => if taken then 2 else 1
  | .load .., _ => 2
  | .op a _ _ _ _, _ =>
    match a with
    | .mul | .mulh | .mulhsu | .mulhu => 3
    | .div | .divu | .rem | .remu => 34
    | _ => 1
  | _, _ => 1

/-- The instruction at the pc with its length; `none` is a trap. -/
def Cc.fetch (c : Cc) : Option (Rv × Nat) :=
  let a := c.pc.toNat
  if a % 2 ≠ 0 ∨ 0x40000 ≤ a then none
  else
    let h := leNat (c.mem.readN a 2)
    if h % 4 = 3 then (if 0x40000 < a + 4 then none else (rvDecode (leNat (c.mem.readN a 4))).map (·, 4))
    else (rvcDecode h).map (·, 2)

/-- Execute one decoded instruction of length `len`; the pc has not moved yet. -/
def State.ccRun (s : State) (c : Nat) (i : Rv) (len : Nat) : State :=
  let cc := (s.core c).cc
  let next := cc.pc + BitVec.ofNat 64 len
  let set (rd : Nat) (v pc : DWord) (cy : Nat) : State :=
    s.modCore c (fun k => { k with cc := { (k.cc.setReg rd v) with pc := pc, cycles := k.cc.cycles + cy } })
  let moved : State := s.modCore c (fun k => { k with cc := { k.cc with pc := next, cycles := k.cc.cycles + rvCycles i false } })
  match i with
  | .lui rd v => set rd v next 1
  | .auipc rd v => set rd (cc.pc + v) next 1
  | .jal rd off => set rd next (cc.pc + off) 2
  | .jalr rd rs off => set rd next ((cc.reg rs + off) &&& ~~~(1 : DWord)) 2
  | .branch f3 a b off =>
    let t := branchTaken f3 (cc.reg a) (cc.reg b)
    set 0 0 (if t then cc.pc + off else next) (rvCycles i t)
  | .load f3 rd rs off => moved.ccLoad c f3 rd (cc.reg rs + off).toNat
  | .store f3 a b off => moved.ccStore c f3 (cc.reg a + off).toNat (cc.reg b)
  | .opImm op w rd rs imm => set rd (aluRun op w (cc.reg rs) imm) next 1
  | .op op w rd a b => set rd (aluRun op w (cc.reg a) (cc.reg b)) next (rvCycles i false)
  | .fence => set 0 0 next 1

end Sys2Proof.Machine
end

