-- ==== Sys2Proof/Machine/Control.lean ====
section
/-! DEFINITION. Meanings of the control core's commands and events. -/

namespace Sys2Proof.Machine

/-- The control core executes the instruction at its pc (R42, R43). A halted or stalled core executes none. -/
def execCcInstruction (step : CcStep) (s : State) : Outcome :=
  let core := step.core
  let cc := (s.core core).cc
  if cc.halted ∨ cc.stall ≠ .none then .next s
  else
    match cc.fetch with
    | none => .next (s.ccTrap core)
    | some (i, len) => .next ((s.spadCorrected core step.corrected).ccRun core i len)

/-- The store to offset 0x38 of a queue window enqueues its 16 words (R44, R45, R195). -/
def execDescriptorEnqueue (core : Fin 24) (queue : Fin 4) (words : List Word) (s : State) : Outcome :=
  .next (s.enqueue core queue words)

/-- A control core stalled on a full queue resumes when an entry is free (R45). -/
def execQueueFullResume (core : Fin 24) (s : State) : Outcome :=
  let k := s.core core
  match k.cc.stall with
  | .queue q =>
    if (k.queue q).length < 64 then
      .next ((s.setCore core { k with cc := { k.cc with stall := .none } }).enqueue core q (k.cc.windowWords q))
    else .next s
  | _ => .next s

/-- The load of the FIFO head's last word pops the record (R198); an empty FIFO stalls it (R199). -/
def execSummaryFifoPop (core : Fin 24) (rd : Fin 32) (s : State) : Outcome :=
  .next (s.modCore core (fun k => k.popSummary s.time.up rd 7))

/-- A stalled read of the FIFO head resumes when a record has arrived (R199). -/
def execSummaryStallResume (core : Fin 24) (s : State) : Outcome :=
  let k := s.core core
  match k.cc.stall with
  | .summary rd w t => if k.ve.fifo = [] then .next s else .next (s.setCore core (k.popSummary t rd w))
  | _ => .next s

/-- The stall passes the partition's deadline: the control core halts and every job of the partition is killed (R199). -/
def execVeSumTimeout (core : Fin 24) (s : State) : Outcome :=
  let k := s.core core
  match k.cc.stall with
  | .summary _ _ t =>
    if t + k.deadlineUs.toNat * 1000 ≤ s.time.up ∧ k.ve.fifo = [] then
      .next ((s.setCore core { k with cc := { k.cc with halted := true, trapped := true, stall := .none } }).killPartition (partOfCore core)
        Cause.veSumTimeout 0 { core := some core.val })
    else .next s
  | _ => .next s

/-- The load of the scan gate (R594). -/
def execScanGate (core : Fin 24) (rd : Fin 32) (s : State) : Outcome :=
  .next (s.scanGate core rd)

end Sys2Proof.Machine
end

