-- ==== Sys2Proof/Machine/Sha.lean ====
section
/-! DEFINITION. SHA-256, over which the digest segments of a shard are taken (10_hbm_and_sluice.md R374, R375). PRESUMED (log 149): the
function is that of FIPS 180-4, which the manual names and does not print. -/

namespace Sys2Proof.Machine

/-- The initial hash value. -/
def shaInit : List Word :=
  [0x6a09e667, 0xbb67ae85, 0x3c6ef372, 0xa54ff53a, 0x510e527f, 0x9b05688c, 0x1f83d9ab, 0x5be0cd19]

/-- The round constants. -/
def shaK : List Word :=
  [0x428a2f98, 0x71374491, 0xb5c0fbcf, 0xe9b5dba5, 0x3956c25b, 0x59f111f1, 0x923f82a4, 0xab1c5ed5,
   0xd807aa98, 0x12835b01, 0x243185be, 0x550c7dc3, 0x72be5d74, 0x80deb1fe, 0x9bdc06a7, 0xc19bf174,
   0xe49b69c1, 0xefbe4786, 0x0fc19dc6, 0x240ca1cc, 0x2de92c6f, 0x4a7484aa, 0x5cb0a9dc, 0x76f988da,
   0x983e5152, 0xa831c66d, 0xb00327c8, 0xbf597fc7, 0xc6e00bf3, 0xd5a79147, 0x06ca6351, 0x14292967,
   0x27b70a85, 0x2e1b2138, 0x4d2c6dfc, 0x53380d13, 0x650a7354, 0x766a0abb, 0x81c2c92e, 0x92722c85,
   0xa2bfe8a1, 0xa81a664b, 0xc24b8b70, 0xc76c51a3, 0xd192e819, 0xd6990624, 0xf40e3585, 0x106aa070,
   0x19a4c116, 0x1e376c08, 0x2748774c, 0x34b0bcb5, 0x391c0cb3, 0x4ed8aa4a, 0x5b9cca4f, 0x682e6ff3,
   0x748f82ee, 0x78a5636f, 0x84c87814, 0x8cc70208, 0x90befffa, 0xa4506ceb, 0xbef9a3f7, 0xc67178f2]

/-- The functions of the message schedule and of a round. -/
def shaSmall0 (x : Word) : Word := x.rotateRight 7 ^^^ x.rotateRight 18 ^^^ (x >>> 3)
def shaSmall1 (x : Word) : Word := x.rotateRight 17 ^^^ x.rotateRight 19 ^^^ (x >>> 10)
def shaBig0 (x : Word) : Word := x.rotateRight 2 ^^^ x.rotateRight 13 ^^^ x.rotateRight 22
def shaBig1 (x : Word) : Word := x.rotateRight 6 ^^^ x.rotateRight 11 ^^^ x.rotateRight 25
def shaChoose (x y z : Word) : Word := (x &&& y) ^^^ (~~~x &&& z)
def shaMajor (x y z : Word) : Word := (x &&& y) ^^^ (x &&& z) ^^^ (y &&& z)

/-- The eight working variables of a block's rounds. -/
structure ShaVars where
  a : Word
  b : Word
  c : Word
  d : Word
  e : Word
  f : Word
  g : Word
  h : Word

/-- One round with its constant and schedule word. -/
def ShaVars.round (v : ShaVars) (k w : Word) : ShaVars :=
  let t1 := v.h + shaBig1 v.e + shaChoose v.e v.f v.g + k + w
  let t2 := shaBig0 v.a + shaMajor v.a v.b v.c
  { a := t1 + t2, b := v.a, c := v.b, d := v.c, e := v.d + t1, f := v.e, g := v.f, h := v.g }

/-- `n` further schedule words; `ws` has the last sixteen, newest first. -/
def shaMore : Nat → List Word → List Word
  | 0, _ => []
  | n + 1, ws =>
    let w := shaSmall1 (ws.getD 1 0) + ws.getD 6 0 + shaSmall0 (ws.getD 14 0) + ws.getD 15 0
    w :: shaMore n ((w :: ws).take 16)

/-- The schedule of a block of sixteen words. -/
def shaSchedule (block : List Word) : List Word := block ++ shaMore 48 block.reverse

/-- The hash value after one more block. -/
def shaBlock (hs block : List Word) : List Word :=
  let at_ (i : Nat) : Word := hs.getD i 0
  let v0 : ShaVars := { a := at_ 0, b := at_ 1, c := at_ 2, d := at_ 3, e := at_ 4, f := at_ 5, g := at_ 6, h := at_ 7 }
  let v := (shaK.zip (shaSchedule block)).foldl (fun v e => v.round e.1 e.2) v0
  [at_ 0 + v.a, at_ 1 + v.b, at_ 2 + v.c, at_ 3 + v.d, at_ 4 + v.e, at_ 5 + v.f, at_ 6 + v.g, at_ 7 + v.h]

/-- A number's `n` low bytes, most significant first. -/
def beBytes (n v : Nat) : List Byte := (List.range n).reverse.map (fun i => BitVec.ofNat 8 (v >>> (8 * i)))

/-- Bytes as words, most significant byte first. -/
def beWords : List Byte → List Word
  | a :: b :: c :: d :: rest => (a ++ b ++ c ++ d) :: beWords rest
  | _ => []

/-- A message with its padding: a one bit, zeros, its length in bits. -/
def shaPadded (bs : List Byte) : List Byte :=
  bs ++ [0x80] ++ List.replicate ((119 - bs.length % 64) % 64) 0 ++ beBytes 8 (8 * bs.length)

/-- The hash value over `n` blocks of sixteen words. -/
def shaRun : Nat → List Word → List Word → List Word
  | 0, hs, _ => hs
  | n + 1, hs, ws => shaRun n (shaBlock hs (ws.take 16)) (ws.drop 16)

/-- SHA-256 of a byte sequence: 32 bytes. -/
def sha256 (bs : List Byte) : List Byte :=
  let ws := beWords (shaPadded bs)
  (shaRun (ws.length / 16) shaInit ws).flatMap (fun w => beBytes 4 w.toNat)

end Sys2Proof.Machine
end

