-- ==== Sys2Proof/Machine/Flags.lean ====
section
/-! DEFINITION. Status words: how register reads, replies and the census compose them from the state (the register tables of the
spec). -/

namespace Sys2Proof.Machine

/-- An integer in `n` bits of two's complement. -/
def twos (n : Nat) (i : Int) : Nat := (BitVec.ofInt n i).toNat

/-! ## Links (11_elcor_links.md "Registers") -/

/-- `LINK_STATUS`. -/
def LinkSt.status (k : LinkSt) : Word :=
  pack [(k.state.code, 29), (k.peerPort % 64, 23), (k.peerChip % 2048, 12), (k.lanesOk % 16, 8), (min 255 k.trainMs, 0)]

/-- LINK_STATUS's result words: status, delay, FEC counts, replays, late replays, transit reservation. -/
def LinkSt.words (k : LinkSt) : List Word :=
  [k.status, BitVec.ofNat 32 k.delay.toNat, k.fecCorr, k.fecUncorr, k.replay, k.replayLate, BitVec.ofNat 32 k.transit]

/-- `TIME_STATUS`. -/
def TimeSt.status (t : TimeSt) : Word :=
  pack [(b2n t.locked, 31), (b2n t.master, 30), (b2n t.suspect, 29), (t.parent % 64, 16), (twos 16 t.offset, 0)]

/-- `ELCOR_CHIP`. -/
def TimeSt.chipWord (t : TimeSt) : Word := pack [(b2n t.chipValid, 31), (t.chip % 2048, 0)]

/-! ## Pair (12_pairs_and_takeover.md "Registers") -/

/-- An event less than 200 µs ago. -/
def State.recent (s : State) (t : Option Nat) : Bool := match t with | some u => decide (s.time.up < u + 200000) | none => false

/-- A heartbeat on a link within 200 µs. -/
def State.linkAlive (s : State) (l : Nat) : Bool := s.recent (s.link l).heartbeat

/-- An edge on TWIN_HB_IN within 200 µs; under a spare binding the wire is taken as silent (R456). -/
def State.wireAlive (s : State) : Bool := s.recent s.pair.hbInAt && !s.pair.spare

/-- `PAIR_STATUS`. -/
def State.pairStatus (s : State) : Word :=
  pack [(s.pair.state.code, 28), (b2n s.pair.spare, 27), (b2n s.pair.isolated, 26), (b2n s.pair.hbOutOk, 25),
    (b2n (s.recent s.pair.hbInAt), 24), (b2n s.pair.witnessOk, 23), (s.pair.twinChip % 2048, 4),
    (b2n (s.linkAlive 32) + 2 * b2n (s.linkAlive 33) + 4 * b2n (s.linkAlive 34) + 8 * b2n (s.linkAlive 35), 0)]

/-- `PAIR_QUIET`. -/
def State.quietWord (s : State) : Word := BitVec.ofNat 32 (min 0xFFFF (s.quiet / 1000))

/-- PAIR_STATUS's result words. -/
def State.pairWords (s : State) : List Word :=
  [s.pairStatus, BitVec.ofNat 32 s.pair.epoch.toNat, s.quietWord, s.pair.takeovers, s.pair.fences,
    lo32 s.pair.lastTakeover.toNat, hi32 s.pair.lastTakeover.toNat]

end Sys2Proof.Machine
end

