-- ==== Sys2Proof/Machine/RecvOps.lean ====
section
/-! DEFINITION. What a chip does with the transfers that arrive on a link (11_elcor_links.md R386, R408, R413 to R416) and with its
twin's relays and mirrors (12_pairs_and_takeover.md R427 to R434). -/

namespace Sys2Proof.Machine

/-! ## Transfers -/

/-- A link on which messages arrive and count. -/
def State.hears (s : State) (l : Nat) : Bool := (s.link l).state == .up && s.rst.ready && s.rst.quiesce.isNone && !s.rst.railFault

/-- Pair traffic that is not a job's own transfer. -/
def RunDest.ofPair : RunDest → Bool
  | .plane .. => false
  | _ => true

/-- A transfer that goes on to another chip. -/
def State.transits (s : State) (r : Run) : Bool := !r.dest.ofPair && r.destChip != s.time.chip

/-- The run now open on a VC of a link. -/
def LinkSt.run (k : LinkSt) (vc : Nat) : Option Transfer := OTable.at? k.current vc

/-- Every transfer of a link that has not committed. -/
def LinkSt.transfers (k : LinkSt) : List Transfer := (OTable.entries k.current).map (·.2) ++ k.open_

/-- A RUN opens its run on its VC; the run before it stays open until its COMMIT (R386). -/
def LinkSt.openRun (k : LinkSt) (t : Transfer) : LinkSt :=
  let same (u : Transfer) : Bool := u.run.xfer == t.run.xfer && u.run.dest == t.run.dest && u.run.vc == t.run.vc
  let old := (k.run t.run.vc).toList
  let all := k.open_ ++ old
  let t' := (all.find? same).getD t
  { k with current := Table.put none k.current t.run.vc (some t'), open_ := all.filter (fun u => !same u) }

/-- Change the transfers of a link. -/
def LinkSt.mapRuns (k : LinkSt) (f : Transfer → Transfer) : LinkSt :=
  { k with current := k.current.map (fun e => (e.1, e.2.map f)), open_ := k.open_.map f }

/-- Drop the transfers of a link that a test selects. -/
def LinkSt.dropRuns (k : LinkSt) (f : Transfer → Bool) : LinkSt :=
  { k with current := k.current.filter (fun e => match e.2 with | some t => !f t | none => false),
           open_ := k.open_.filter (fun t => !f t) }

/-- A failed transfer is discarded (R413): the source of a job's transfer is told and the cause reported with the source chip. -/
def State.failTransfer (s : State) (l : Nat) (r : Run) (cause : Nat) : State :=
  let mine (t : Transfer) : Bool := t.run.xfer == r.xfer && t.run.srcChip == r.srcChip
  let s1 := { s with links := Table.mapV {} s.links (fun _ k => k.mapRuns (fun t => if mine t then { t with bad := true } else t)) }
  let s2 := if r.dest.ofPair then s1 else s1.sendTo r.srcChip [.xferFail r.srcChip r.xfer cause]
  s2.faultEvent cause none none r.srcChip { link := some l }

/-- The destination check of a RUN (R63, R71, R413). -/
def State.runFault (s : State) (r : Run) : Option Nat :=
  match r.dest with
  | .plane core p =>
    let sp := (s.core core).spad
    if 24 ≤ core ∨ !(sp.pound p.pound).allowsRemote true p.endb then some Cause.poundFault else berthFull sp p
  | _ => none

/-- The pipeline's T0 of a chunk of a link-fed cohort (R30): its streams' records carry it, and the stage's windows are measured from
T0_s = T0 + Δ_s. -/
def State.setPipe (s : State) (j k chunk t0 : Nat) : State :=
  let b := s.job j
  let origin := t0 + b.image.stageNs
  let now := (b.cohort k).seq == chunk && b.image.shape.linkFed
  let s1 := s.modCohort j k (fun h =>
    let h1 := { h with pipes := lastN 8 (h.pipes.filter (fun e => e.1 != chunk) ++ [(chunk, t0)]) }
    if !now then h1
    else if h.phase = .waitRelay ∨ h.phase = .computing then
      { h1 with t0 := origin, deadlineAt := h.deadlineAt.map (fun t => t + origin - h.t0) }
    else if h.recovery.isSome then
      { h1 with t0 := origin, recovery := h.recovery.map (fun t => t + origin - h.t0) }
    else h1)
  if now then s1.each (s1.streamsIn j k) (fun s i => s.modStream i (fun v =>
    { v with stepping := v.stepping.map (fun g => { g with t0 := t0 }) })) else s1

/-- A retained transfer is noted for its chunk (R30, R418, R578, R728). -/
def State.noteRetained (s : State) (r : Run) : State :=
  match r.dest with
  | .plane core p =>
    let j := ((s.core core).spad.pound p.pound).owner
    if !r.retain ∨ (s.job j).state = .free then s
    else
      let key := (r.chunk, r.srcChip)
      (s.setPipe j r.cohort r.chunk r.t0).modCohort j r.cohort (fun h => { h with
        retainedFrom := if h.retainedFrom.contains key then h.retainedFrom else h.retainedFrom ++ [key],
        tokensDue := if h.tokensHeld.contains key ∨ h.tokensDue.contains key then h.tokensDue else h.tokensDue ++ [key],
        abandoned := h.abandoned && r.chunk != h.seq, marks := if r.marks = [] then h.marks else r.marks })
  | _ => s

/-! ## Relays (R427) -/

/-- The sequence of a relayed chunk, by its slot: one of the two that follow the mirror held. -/
def MirrorEntry.seqOf (e : MirrorEntry) (slot : Nat) : Nat :=
  let base := if e.valid then e.mirrorSeq else 0xFFFF
  if (base + 1) % 2 = slot % 2 then (base + 1) % 65536 else (base + 2) % 65536

/-- A stream's relay is held; the last one of its cohort is acknowledged. -/
def State.holdRelay (s : State) (r : Run) : State :=
  match r.dest with
  | .relay i slot last =>
    let s1 := s.modEntry i (fun e =>
      { e with relaySeq := e.seqOf slot, relayHeld := true })
    if last then s1.sendTwin [.relayAck s.pair.epoch.toNat r.cohort r.chunk] else s1
  | _ => s

/-- Where the next barge of a pair run goes in the mirror area (R430, R432): the slots that are not current. -/
def State.pairAddr (s : State) (r : Run) (n : Nat) : Nat :=
  match r.dest with
  | .relay i slot _ => relayAddr i (slot % 2) + 4096 * n
  | .state i _ _ => stateSlotAddr i (1 - b2n (s.mirrorEntry i).cur) + 4096 * n
  | .summary i _ => summarySlotAddr i (1 - b2n (s.mirrorEntry i).cur) + 4096 * n
  | .record j => jobSlotAddr j (1 - s.jobSlotOf j % 2) + 4096 * n
  | .plane .. => 0

/-! ## Arrivals -/

/-- A RUN message arrives (R386, R413, R426). -/
def State.recvRun (s : State) (l : Nat) (r : Run) : State :=
  let stale := r.dest.ofPair && !s.epochOk r.epoch
  let s1 := s.modLink l (fun k => k.openRun { run := r, bad := stale })
  if stale then s1.stale
  else if s.transits r then s1.forward r.destChip [.run r]
  else
    match s.runFault r with
    | some f => s1.failTransfer l r f
    | none =>
      let s2 := s1.noteRetained r
      if r.barges = 0 then s2.holdRelay r else s2

/-- A barge of the open run of its VC arrives (R385, R413): its CRC is checked, and it is kept until the COMMIT; one of pair traffic
goes into the mirror area at once. -/
def State.recvBarge (s : State) (l vc xfer : Nat) (bytes : List Byte) (tag : Tag) : State :=
  let s0 := s.freeCredit l vc 1
  match (s.link l).run vc with
  | none => s0
  | some t =>
    if t.run.xfer ≠ xfer ∨ t.bad then s0
    else if s.transits t.run then s0.forward t.run.destChip [.barge vc xfer bytes tag]
    else if crc32c bytes ≠ tag.crc then s0.failTransfer l t.run Cause.blockCrc
    else if t.run.barges ≤ t.got.length then s0
    else
      let n := t.got.length
      let s1 := s0.modLink l (fun k => { k with current := Table.put none k.current vc (some { t with got := t.got ++ [(bytes, tag)] }) })
      if t.run.dest.ofPair then
        let s2 := { s1 with hbm := s1.hbm.writeN (s1.pairAddr t.run n) bytes }
        if n + 1 = t.run.barges then s2.holdRelay t.run else s2
      else s1

/-- The barges of a transfer's part become visible (R415): bytes and tags, by the block index of each. -/
def State.landPart (s : State) (t : Transfer) : State :=
  match t.run.dest with
  | .plane core q =>
    let p := q.flat
    let sp := (s.core core).spad
    let at_ := planeAddrs (sp.pound p.pound) p
    let ix (e : List Byte × Tag) : Nat := (e.2.block - BitVec.ofNat 32 p.bidx).toNat
    let bytes := t.got.flatMap (fun e => ((List.range 4096).zip e.1).filterMap (fun b => (at_[4096 * ix e + b.1]?).map (·, b.2)))
    let sp1 := { sp with bytes := sp.bytes.writes bytes }
    let tensors := (List.range (p.count / 4096)).map (fun i =>
      ((t.got.find? (fun e => ix e == i)).map (fun e => e.2.tensor)).getD (BitVec.ofNat 32 p.tensor))
    let mine := t.got.map ix
    let places := (p.barges (sp.pound p.pound)).filter (fun e => mine.contains e.2)
    let tags := (newTags sp1 p tensors).filter (fun e => places.any (fun q => q.1 == e.1))
    let occ := (filled sp p).filter (fun e => places.any (fun q => q.1 == e.1))
    s.modCore core (fun k => { k with spad := (sp1.setTags tags).setOcc occ })
  | _ => s

/-- A COMMIT of a transfer arrives (R415, R416): its part lands, and with the last of its parts the lock signal applies. -/
def State.recvCommit (s : State) (l vc xfer parts : Nat) (sig : Option Signal) : State :=
  match (s.link l).transfers.find? (fun t => t.run.xfer == xfer && t.run.vc == vc && t.parts == 0) with
  | none => s
  | some t =>
    let gone (k : LinkSt) : LinkSt := k.dropRuns (fun u => u == t)
    if s.transits t.run then (s.modLink l gone).forward t.run.destChip [.commit vc xfer parts sig]
    else if t.bad ∨ t.got.length < t.run.barges then s.modLink l gone
    else
      let s1 := (s.landPart t).modLink l (fun k => let k := gone k; { k with open_ := k.open_ ++ [{ t with got := [], parts := parts }] })
      let mine (u : Transfer) : Bool := u.run.xfer == xfer && u.run.srcChip == t.run.srcChip && u.parts == parts
      let n := (s1.links.map (fun e => e.2.open_.countP mine)).sum
      if n < parts then s1
      else
        let s2 := { s1 with links := Table.mapV {} s1.links (fun _ k => { k with open_ := k.open_.filter (fun u => !mine u) }) }
        match sig with
        | some g => if g.core < 24 then s2.remoteSignals g.core [g] else s2
        | none => s2

/-! ## Mirrors (R433, R467) -/

/-- The pair is MIRRORED: waiting commands are answered, the re-mirror ends, a deferred warm reset begins (R373, R661). -/
def State.becomeMirrored (s : State) : State :=
  let s1 := { s with pair := { s.pair with
    state := .mirrored, mirrorSyncing := false, ownSynced := false, twinSynced := false, decided := 0, carriedPlane := none } }
  let s2 := s1.answerWaits (fun w => w.kind == .mirror) (fun _ => (St.ok, 0, []))
  let s3 := if (s2.act actRemirror).phase = .idle then s2 else s2.endAct actRemirror
  match s3.rst.deferred with
  | some c => { s3 with rst := { s3.rst with deferred := none } }.warmReset c
  | none => s3

/-- What the completed initial mirrors lead to. -/
def State.syncStep (s : State) : State :=
  if s.pair.state ≠ .syncing ∨ !s.pair.twinSynced then s
  else if s.pair.twinState = .solo then
    { s with pair := { s.pair with state := .yielded, mirrorSyncing := false, ownSynced := false, twinSynced := false } }
  else if s.pair.ownSynced then s.becomeMirrored
  else s

/-- The intake that a mirrored chunk has consumed, relayed before, is retained for the positions that the chunk appended (R268). -/
def State.retainRelayed (s : State) (m : MirrorLine) : State :=
  let e := s.mirrorEntry m.index
  let st := m.stream
  let img := (s.job st.adm.job).image
  let count (slot t : Nat) : Nat := leNat (s.hbm.readN (stateSlotAddr m.index slot + img.recordAt t) 4)
  if e.valid ∧ e.relayHeld ∧ e.relaySeq = st.lastSeq then
    s.each ((List.range img.kv.length).zip img.kv) (fun s v =>
      s.retainInput m.index v.1 v.2 (count (b2n e.cur) v.1) (count (1 - b2n e.cur) v.1)
        (s.hbm.readN (relayAddr m.index (st.lastSeq % 2)) img.shape.intakeBytes))
  else s

/-- Step 1 of R433 for one stream. -/
def State.mirrorStream (s0 : State) (cohort : Nat) (m : MirrorLine) : State :=
  let st := m.stream
  let s := s0.retainRelayed m
  let s1 := s.modEntry m.index (fun e => { e with
    valid := true, cur := !e.cur, applyPend := true, stream := some { st with queued := [], stepping := none }, state4k := m.state4k,
    mirrorSeq := st.lastSeq, heldAt := s.time.now })
  let s2 := { s1 with gens := Table.put 0 s1.gens m.index (bits st.adm.handle.toNat 0 6),
                      pair := { s1.pair with kept := s1.pair.kept.filter (fun e => e.1 != m.index) } }
  match st.binding with
  | some b => s2.ensureBuf b.wharf st.adm.job (swapCohort (s2.job st.adm.job).own cohort)
  | none => s2

/-- Step 2 of R433 for one stream: the summary changes of its current slot are copied into its KV summary. -/
def State.applySummary (s : State) (i : Nat) (places : List (Nat × Nat)) : State :=
  let from_ := summarySlotAddr i (b2n (s.mirrorEntry i).cur)
  let r := places.foldl (fun (a : Mem × Nat) p => (a.1.writeN (summaryAddr i + p.1) (s.hbm.readN (from_ + a.2) p.2), a.2 + p.2)) (s.hbm, 0)
  { s with hbm := r.1 }.modEntry i (fun e => { e with applyPend := false })

/-- The job whose mirror a link carries. -/
def LinkSt.mirrorJob (k : LinkSt) (lines : List MirrorLine) : Option Nat :=
  ((k.transfers.filterMap (fun t => match t.run.dest with | .record j => if t.bad then none else some j | _ => none)).head?).orElse
    (fun _ => (lines.head?).map (·.stream.adm.job))

/-- A mirror's COMMIT arrives (R433): entries and the job slot flip, summaries are applied, the ack goes out. The mark of a complete
initial mirror is a COMMIT without a cohort. -/
def State.recvMirror (s : State) (l epoch cohort chunk : Nat) (lines : List MirrorLine) : State :=
  let k := s.link l
  let pairRun (t : Transfer) : Bool := t.run.dest.ofPair && (match t.run.dest with | .relay .. => false | _ => true)
  let s0 := s.modLink l (fun k => k.dropRuns pairRun)
  if !s.epochOk epoch then s0.stale
  else if k.transfers.any (fun t => pairRun t && (t.bad || decide (t.got.length < t.run.barges))) then s0
  else
    let s1 := if s0.pair.state = .bound then { s0 with pair := { s0.pair with state := .syncing } } else s0
    let ack := LinkMsg.mirrorAck s.pair.epoch.toNat cohort chunk
    if cohort = 0x3F then { s1.sendTwin [ack] with pair := { s1.pair with twinSynced := true } }.syncStep
    else
      let s2 := s1.each lines (fun s m => s.mirrorStream cohort m)
      let s3 := match k.mirrorJob lines with
        | none => s2
        | some j =>
          let gone := (s2.pair.mirror.filter (fun (e : Nat × MirrorEntry) => e.2.valid && !lines.any (fun m => m.index == e.1) && (match e.2.stream with
            | some st => st.adm.job == j && st.adm.cohort == cohort
            | none => false))).map (fun (e : Nat × MirrorEntry) => e.1)
          let s4 := s2.each gone (fun s i => s.modEntry i (fun _ => {}))
          { s4 with pair := { s4.pair with jobSlot := Table.put 0 s4.pair.jobSlot j (1 - s4.jobSlotOf j % 2),
                                           twinChunks := Table.put 0 s4.pair.twinChunks (j * 64 + cohort) chunk } }
      let s5 := s3.each k.transfers (fun s t => match t.run.dest with | .summary i places => s.applySummary i places | _ => s)
      let s6 := s5.each lines (fun s m => s.modEntry m.index (fun e => { e with applyPend := false }))
      s6.sendTwin [ack]

end Sys2Proof.Machine
end

