-- ==== Sys2Proof/Machine/TakeOps.lean ====
section
/-! DEFINITION. Takeover, restore and planned handover (12_pairs_and_takeover.md R434, R442 to R455). -/

namespace Sys2Proof.Machine

/-! ## From one twin's numbering to the other's -/


/-- The row that a twin's stream has in this chip's layout. -/
def Job.swapRow (b : Job) (k row : Nat) : Nat := row - (b.spec k).row0 + (b.spec (swapCohort b.own k)).row0

/-- The last boundary of one of the twin's cohorts, in its numbering, at or before `t`. -/
def State.twinBoundary (s : State) (j k t : Nat) : Nat := s.boundary (s.job j) (swapCohort (s.job j).own k) t

/-! ## Which chunk the mirror holds (R445, R451) -/

/-- The mirrored entries of one of the twin's cohorts. -/
def State.entriesOf (s : State) (j k : Nat) : List (Nat × MirrorEntry) :=
  s.pair.mirror.filter (fun (e : Nat × MirrorEntry) => e.2.valid && (match e.2.stream with
    | some st => st.adm.job == j && st.adm.cohort == k
    | none => false))

/-- When the cohort's last mirror became current. -/
def State.heldAt (s : State) (j k : Nat) : Nat := ((s.entriesOf j k).map (fun e => e.2.heldAt)).foldl max 0

/-- T0 of the chunk that one of the twin's cohorts closed at boundary `b`, as far as the chip knows it (R28, R30): the FSYNC edge that its
own wharves captured; else the boundary stands for it, in a link-fed stage for T0_s (DESIGN CHOICE, log 145). -/
def State.twinOrigin (s : State) (j k b : Nat) : Nat :=
  match (s.entriesOf j k).filterMap (fun e => e.2.captured.bind (fun c =>
    if c.1 = (e.2.mirrorSeq + 1) % 65536 then some c.2 else none)) with
  | [] => b
  | es => es.foldl max 0

/-- The boundary of the cohort's interrupted chunk at a decision at `d`, if there is one: its T0 is no later than D + 100 µs, and its
commit is not held (R445). -/
def State.interruptedAt (s : State) (j k d : Nat) : Option Nat :=
  let b := s.twinBoundary j k (d + 100000)
  if s.heldAt j k < b ∧ s.twinOrigin j k b ≤ d + 100000 then some b else none

/-- The entry holds its stream's last committed chunk, as far as the schedule shows: nothing has been due for commit since. -/
def State.current (s : State) (j k d : Nat) (e : MirrorEntry) : Bool :=
  let b := s.job j
  let t := s.twinBoundary j k d
  decide ((if t + (b.spec k).commitEnd ≤ d then t else t - b.period) ≤ e.heldAt)

/-! ## Adopting streams -/

/-- The chunk of intake that the chip holds for a twin's stream (R427, R429): relayed, else captured. `at_` is the boundary. A captured
chunk's T0 is its FSYNC edge (R28). When a relayed host chunk's doorbell arrived is not told, so that its T0 is B_k − 20 µs, the least
that R29 allows (DESIGN CHOICE, log 145). -/
def MirrorEntry.heldChunk (e : MirrorEntry) (st : Stream) (at_ : Nat) : List Chunk :=
  let edge := e.captured.bind (fun c => if c.1 = st.nextSeq then some c.2 else none)
  if (e.relayHeld ∧ e.relaySeq = st.nextSeq) ∨ (edge.isSome ∧ st.adm.source ≠ .host) then
    [{ seq := st.nextSeq, arrived := if st.adm.source = .host then 0 else edge.getD at_, inBerth := true, endMark := false, valid := 0,
       tag := 0, bad := 0 }]
  else []

/-- A twin's stream in this chip's stream table. -/
def State.adoptStream (s : State) (i : Nat) (e : MirrorEntry) (st : Stream) : State :=
  let b := s.job st.adm.job
  let k := swapCohort b.own st.adm.cohort
  let adm := { st.adm with cohort := k, row := b.swapRow st.adm.cohort st.adm.row }
  let at_ := s.twinBoundary st.adm.job st.adm.cohort s.time.now
  s.setStream i (some { st with adm := adm, planned := st.state, queued := e.heldChunk st at_, stepping := none })


/-- A restored attention record (R272): positions and last step stay, no span is held, MODE is FULL until the stream enters
REDUCED. -/
def restoredAttention (bs : List Byte) : List Byte :=
  bs.take 12 ++ List.replicate 308 0

/-- Restore one adopted stream from slot CUR into the berths of this chip's layout (R444 step 3): state, row table entry, attention
records, KV summary, intake. Its KV caches are REDUCED (R272, R450). -/
def State.restoreStream (s : State) (i : Nat) (e : MirrorEntry) : State :=
  match s.stream i with
  | none => s
  | some st =>
    let j := st.adm.job
    let row := st.adm.row
    let img := (s.job j).image
    let from_ := stateSlotAddr i (b2n e.cur)
    let n := img.places.stateStride
    let s1 := (s.setRowWord j row (leNat (s.hbm.readN (from_ + img.rowWordAt) 4))).setRowState j row (s.hbm.readN from_ n)
    let s2 := s1.each ((List.range img.kv.length).zip img.kv) (fun s v =>
      let bs := restoredAttention (s.hbm.readN (from_ + img.recordAt v.1) 320)
      s.modCore (Job.coreAt j v.2.core) (fun c => { c with spad := writePound c.spad v.2.pound (kvRec v.2 row) bs }))
    let s4 := ((s2.clearSlots i).readSummary i j row (summaryAddr i)).enterReduced i
    if st.queued = [] then s4 else s4.writeIntake j row (s4.hbm.readN (relayAddr i (st.nextSeq % 2)) img.shape.intakeBytes)

/-- The twin's job records, from the current slot (R166, R444). `all`: the twin carried this chip's cohorts too, so their records come
back with its own. -/
def State.restoreRecords (s : State) (j : Nat) (all : Bool) : State :=
  let twin := s.recordPlaces j true
  let n := (twin.map (fun e => e.2.2.2)).sum
  let bs := s.hbm.readN (jobSlotAddr j (s.jobSlotOf j % 2)) (2 * n)
  let r := s.writePlaces twin bs
  if all then (r.1.writePlaces (s.recordPlaces j false) r.2).1 else r.1

/-- Jobs with a valid mirror entry. -/
def State.mirrorJobs (s : State) : List Nat := (s.twinCohorts.map (·.1)).eraseDups

/-- The twin carried this chip's cohorts of a job. -/
def State.carriedOurs (s : State) (j : Nat) : Bool := s.twinCohorts.any (fun e => e.1 == j && (s.job j).own ≤ e.2)

/-- Where an adopted cohort stands: after the chunk whose mirror the chip holds, or before its interrupted chunk. -/
def State.adoptCohort (s : State) (j k : Nat) (cut : Option Nat) : State :=
  let b := s.job j
  let n := swapCohort b.own k
  let chunk := Table.look 0 s.pair.twinChunks (j * 64 + k)
  let live := (s.streamsIn j n).filter (fun i => ((s.stream i).map (·.state)) == some .live)
  s.modCohort j n (fun h => match cut with
    | some t =>
      let t0 := s.twinOrigin j k t
      { h with chunk := chunk + 1, phase := .idle, bk := t, t0 := t0, recovery := some (t0 + (b.spec n).recovery), owed := live,
               recordsDue := false, relayAcked := true, unmirrored := true, rerun := false }
    | none => { h with chunk := chunk, phase := .committed, bk := s.twinBoundary j k (s.heldAt j k), recovery := none, owed := [],
                       recordsDue := false, rerun := false })

/-- STANDBY wharves that carry a twin's traffic. -/
def State.twinWharves (s : State) : List Nat :=
  (List.range 10).filter (fun n => (s.wharf n).state == .standby && s.pair.mirror.any (fun e => e.2.valid &&
    (match e.2.stream.bind (·.binding) with | some b => b.wharf == n | none => false)))

/-! ## Takeover (R444) -/

/-- `EVT_TAKEOVER`, six cohorts to a record (R561), to PF0 and to every VF that carries a stream of the failed twin (R560). -/
def State.takeoverEvents (s : State) (d : Nat) : State :=
  let cs := s.twinCohorts
  let word (e : Nat × Nat) : Word :=
    match (s.entriesOf e.1 e.2).head? with
    | some m => pack [(m.2.mirrorSeq % 65536, 16), (m.2.relaySeq % 65536, 0)]
    | none => 0
  let fns := if s.vfEnable then [0] ++ (List.range 12).filterMap (fun p => if cs.any (fun e => partOfJob e.1 == p) then some (p + 1) else none)
    else [0]
  s.each (List.range (max 1 ((cs.length + 5) / 6))) (fun s r =>
    let part := (cs.drop (6 * r)).take 6
    s.deliver Ev.takeover fns (eventWords Ev.takeover 0xFF 0xFFFFFFFF part.length ((part.head?.map (·.2)).getD 0) d
      ([lo32 s.pair.twinChip] ++ part.map word)))

/-- Streams that a giver still keeps come back with their state, and their row table entries, as they stand in scratchpad (R229, R454); a
killed job's are lost. -/
def State.resumeKept (s : State) : State :=
  let s1 := s.each s.pair.kept (fun s e =>
    let s2 := s.setStream e.1 (some e.2)
    if (s.job e.2.adm.job).state = .running then s2 else s2.loseStream e.1)
  { s1 with pair := { s1.pair with kept := [], mirror := s1.pair.mirror.filter (fun m => !s.pair.kept.any (fun e => e.1 == m.1)) } }

/-- The streams that a takeover takes in, those that it must lose (R451), and where their cohorts stand. -/
def State.adoptAll (s : State) (d : Nat) (partial_ : Bool) : State :=
  let cs := s.twinCohorts
  let s1 := s.each s.pair.mirror (fun s e =>
    match e.2.valid, e.2.stream with
    | true, some st =>
      if st.state = .opening then s
      else
        let keep := (s.job st.adm.job).state == .running &&
          (!partial_ || st.state == .paused || s.current st.adm.job st.adm.cohort d e.2)
        let s2 := s.adoptStream e.1 e.2 st
        if keep then s2 else s2.loseStream e.1
    | _, _ => s)
  s1.each cs (fun s e => s.adoptCohort e.1 e.2 (s.interruptedAt e.1 e.2 d))

/-- The slip buffers end at the boundaries of the schedule that now holds (R447, R493). -/
def State.alignBufs (s : State) : State :=
  { s with wharves := Table.mapV {} s.wharves (fun _ w => { w with bufs := Table.mapV {} w.bufs (fun key b =>
      { b with b := s.nextBoundary (s.job (key / 32)) (key % 32) s.time.now }) }) }

/-- The barges that the restore of a job reads (R345, R444): the state of each twin stream, cohort by cohort, then the job's records. -/
def State.restoreBarges (s : State) (j : Nat) : List Nat :=
  let cs := s.twinCohorts.filter (fun e => e.1 == j)
  let n := (cs.map (fun e => (s.entriesOf j e.2).length * (s.job j).image.state4k)).sum
  let records := (s.recordPlaces j true).map (·.2.2.2)
  List.replicate (n + ceilDiv records.sum 4096) 4096

/-- The restore's reads ask at the HBM read arbiters of the partitions that hold the solo jobs (R345). -/
def State.askRestore (s : State) : State :=
  s.each s.mirrorJobs (fun s j => s.addMove (partOfJob j) { who := j, weir := 0, sub := 0, todo := s.restoreBarges j })

/-- The restore's reads have all been granted. -/
def State.restoreRead (s : State) : Bool :=
  (List.range 12).all (fun p => (s.part p).moves.all (fun m => decide (96 ≤ m.who)))

/-- The takeover of R444 with decision time `d`; the restore of its steps 2 to 4 and step 6 follow (RESTORE_COMPLETE). -/
def State.takeOver (s : State) (d : Nat) : State :=
  let partial_ := s.pair.state == .unmirrored || s.pair.state == .syncing
  let s1 := { s with pair := { s.pair with
    state := .solo, takeovers := satAdd s.pair.takeovers 1, lastTakeover := BitVec.ofNat 64 d, decisionAt := d, handover := none,
    mirrorSyncing := false, ownSynced := false, twinSynced := false, twinState := .unbound, decided := 0, sent := [],
    carriedPlane := some s.twinPlane, gave := false } }
  let s2 := (s1.resumeKept.takeoverEvents d).alignBufs
  let s3 := s2.adoptAll d partial_
  let s4 := s3.answerWaits (fun w => w.kind == .handover) (fun _ => (St.wrongState, 5, []))
  let s5 := s4.each s4.twinWharves (fun s n => s.modWharf n (fun w => { w with enabling := true }))
  { s5.askRestore with pair := { s5.pair with restoreAt := some s.time.up } }

/-- Everything held of the twin has been taken in. -/
def State.dropMirror (s : State) : State :=
  { s with pair := { s.pair with mirror := [], jobSlot := [], twinChunks := [] } }

/-- The cohorts, in this chip's numbering, of the mirrored streams that a test selects. -/
def State.adoptedCohorts (s : State) (f : Stream → Bool) : List (Nat × Nat) :=
  (s.pair.mirror.filterMap (fun (e : Nat × MirrorEntry) => match e.2.valid, e.2.stream with
    | true, some st => if f st then some (st.adm.job, swapCohort (s.job st.adm.job).own st.adm.cohort) else none
    | _, _ => none)).eraseDups

/-- Every row of a cohort is FREE, as the mirror's row table has the rows without a stream. -/
def State.freeCohortRows (s : State) (j k : Nat) : State :=
  let c := (s.job j).spec k
  s.each (List.range c.rows) (fun s r => s.setRow j (c.row0 + r) rowFreeSt 0 noEnd)

/-- Restore the adopted streams that a test selects, with the records of their jobs (R444 step 3). -/
def State.restoreAll (s : State) (f : Stream → Bool) : State :=
  let s0 := s.each (s.adoptedCohorts f) (fun s e => s.freeCohortRows e.1 e.2)
  let s1 := s0.each s.pair.mirror (fun s e => match e.2.stream with
    | some st => if e.2.valid && f st then s.restoreStream e.1 e.2 else s
    | none => s)
  s1.each s.mirrorJobs (fun s j => s.restoreRecords j (s.carriedOurs j))

/-- The end of a restore (R307, R419, R444, R466): locks are restored, upstream chips learn of the survivor, and the interrupted chunks
that have consumers are retracted. -/
def State.endRestore (s : State) : State :=
  let failed := s.pair.twinChip
  let s1 := s.restoreAll (fun _ => true)
  let mine := s.twinCohorts.map (fun e => (e.1, swapCohort (s.job e.1).own e.2))
  let s2 := s1.each mine (fun s e => s.restoreLocks e.1 e.2)
  let s3 := s2.each s.mirrorJobs (fun s j => s.each (s.job j).image.upstreamChips (fun s c =>
    s.sendTo c [.retarget c failed s.time.chip]))
  let s4 := s3.each mine (fun s e =>
    let h := (s.job e.1).cohort e.2
    if h.recovery.isNone then s
    else s.each (s.job e.1).image.downstream (fun s c =>
      { s with pair := { s.pair with retractTx := satAdd s.pair.retractTx 1 } }.sendTo c [.retract c e.2 h.seq s.time.chip 4 0]))
  { s4.dropMirror with pair := { s4.dropMirror.pair with restoreAt := none } }

/-! ## Planned handover (R453 to R455) -/

/-- The least nanoseconds between the acceptance of a handover and H. -/
def handoverNs : Nat := 1000000

/-- A cohort whose step H no longer opens on the giver: the taker holds its last commit (R453). -/
def State.mayMove (s : State) (e : Nat × Nat) : Bool :=
  let h := (s.job e.1).cohort e.2
  (h.phase == .idle || h.phase == .committed) && !h.recordsDue && h.mirrorDue.isNone && h.recovery.isNone

/-- A cohort moves: the giver keeps its streams' state, with their row table entries (R229), and the wharves that they use exchange
roles. -/
def State.giveCohort (s : State) (at_ : Nat) (e : Nat × Nat) : State :=
  s.each (s.streamsIn e.1 e.2) (fun s i =>
    match s.stream i with
    | none => s
    | some st =>
      let s1 := match st.binding with
        | some b => s.modWharf b.wharf (fun w => { w with swapAt := some (w.swapAt.getD at_) })
        | none => s
      let s2 := s1.setStream i none
      { s2 with pair := { s2.pair with kept := s2.pair.kept ++ [(i, { st with queued := [], stepping := none })] } })

/-- A handover has moved its last cohort (R24, R467). -/
def State.endHandover (s : State) (h : Handover) : State :=
  let s0 : State := { s with pair := { s.pair with handover := none } }
  let s1 := s0.answerWaits (fun w => w.kind == .handover) (fun _ => (St.ok, 0, [lo32 h.at_, hi32 h.at_]))
  if h.give then
    if s1.streams = [] then { s1 with pair := { s1.pair with state := .yielded } } else s1
  else if s1.servedCohorts.any (fun e => (s1.job e.1).own ≤ e.2) then s1
  else s1.becomeMirrored

/-- A planned handover begins: H is at least 1 ms ahead, and how far beyond is the lockkeeper's choice, a free value. -/
def State.beginHandover (s : State) (give : Bool) (moving : List (Nat × Nat)) : State :=
  let d := s.draw
  let h : Handover := { give := give, at_ := s.time.now + handoverNs + Config.freeNat d.1, moving := moving }
  { d.2 with pair := { s.pair with handover := some h } }

/-- The lockkeeper gives every stream to the twin for its own work, and takes them back when that is done (R377, R379, R403, R421,
R694). -/
def State.giveAway (s : State) (all : List (Nat × Nat)) : State :=
  if s.pair.state = .mirrored ∧ s.pair.handover.isNone then
    let s1 := s.beginHandover true all
    { s1 with pair := { s1.pair with gave := true } }
  else s

/-- The lockkeeper of a YIELDED chip takes the streams back that it gave away, once nothing that asked for it is left: no segment is bad, no
handover activity stands, the clock is right, no link that its flows use is out. The handover time is at least 1 ms ahead (R453). -/
def State.takeBack (s : State) : State :=
  let busy := s.mgmt.acts.any (fun e => actHandover e.1 && (e.2.phase == .running || e.2.phase == .granted || decide (1 ≤ e.2.level)))
  let cut := (List.range 32).any (fun l => (s.link l).state == .markedOut && !(s.flowsOn l).isEmpty)
  if s.pair.state == .yielded && s.pair.gave && s.pair.handover.isNone && !busy && s.integ.digestBad.isEmpty && !s.time.suspect &&
      !cut then
    s.beginHandover false []
  else s

/-- Cohorts that a handover may move: all that the chip serves, or after a takeover the twin's. -/
def State.movable (s : State) (give : Bool) (mask : Nat) : List (Nat × Nat) :=
  s.servedCohorts.filter (fun e => (give || (s.job e.1).own ≤ e.2) && (mask == 0 || bitAt mask e.2))

/-- A twin's cohorts move to this chip as planned: MIRRORED to SOLO takes them all, YIELDED to MIRRORED takes its own back, with
RETARGET for itself (R453, R729). -/
def State.takePlanned (s : State) (back : Bool) : State :=
  let mine (st : Stream) : Bool := !back || decide ((s.job st.adm.job).own ≤ st.adm.cohort)
  let cs := s.twinCohorts.filter (fun e => !back || decide ((s.job e.1).own ≤ e.2))
  let s0 := s.each s.twinWharves (fun s n => s.modWharf n (fun w => { w with swapAt := some (w.swapAt.getD s.time.now) }))
  let s1 := s0.each s0.pair.mirror (fun s e =>
    match e.2.valid, e.2.stream with
    | true, some st =>
      if !mine st ∨ st.state = .opening then s
      else
        let s2 := s.adoptStream e.1 e.2 st
        if (s.job st.adm.job).state = .running then s2 else s2.loseStream e.1
    | _, _ => s)
  let s2 := s1.each cs (fun s e => s.adoptCohort e.1 e.2 none)
  let s3 := s2.restoreAll mine
  let s4 := s3.each cs (fun s e => s.restoreLocks e.1 (swapCohort (s.job e.1).own e.2))
  let s5 := { s4 with pair := { s4.pair with
    mirror := s4.pair.mirror.filter (fun (e : Nat × MirrorEntry) => match e.2.stream with | some st => !mine st | none => true),
    kept := s4.pair.kept.filter (fun e => !s4.streams.any (fun x => x.1 == e.1)), decisionAt := s.time.now } }
  if back then
    let s6 := s5.each ((cs.map (·.1)).eraseDups) (fun s j => s.each (s.job j).image.upstreamChips (fun s c =>
      s.sendTo c [.retarget c s.time.chip s.time.chip]))
    { s6 with pair := { s5.pair with state := .mirrored, carriedPlane := none, handover := none, gave := false } }.alignBufs
  else
    { s5 with pair := { s5.pair with state := .solo, twinState := .yielded, carriedPlane := some s.twinPlane } }.alignBufs

end Sys2Proof.Machine
end

