-- ==== Sys2Proof/Machine/Models.lean ====
section
/-! DEFINITION. Meanings of the model commands and of the HBM controllers' events (10_hbm_and_sluice.md, R556, R601, R602, R612,
R613, R680). -/

namespace Sys2Proof.Machine

/-! ## The model store (R612, R613) -/

/-- A stored model with its first 4 KiB unit in the store. -/
def State.stored (s : State) (model : Nat) : Option (Nat × StoredModel) :=
  (placedModels 0 s.flash.models).find? (fun e => e.2.pkg.id == model)


/-- Copy one stored barge with its tag to barge `n` of the device (R612). -/
def State.copyBarge (s : State) (n : Nat) (b : StoredBarge) : State :=
  { s with hbm := s.hbm.writeN (n * 4096) (b.bytes.take (b.tag.slen * 64)), hbmTags := Table.put {} s.hbmTags n b.tag }

/-- Copy barges of a shard whose first barge is `first` of the partition's area. -/
def State.copyShard (s : State) (p first : Nat) (m : ModelPkg) (is : List Nat) : State :=
  let base := (s.part p).firstBarge + first
  s.each is (fun s i =>
    match m.shard[i]? with
    | some b => s.copyBarge (base + i) b
    | none => s)

/-- Barges of a digest segment: 64 MiB (R374). -/
def segmentLen : Nat := 16384

/-- The shard's weight barges in ascending order, as their tensors' ranges list them (R374). -/
def ModelPkg.weightBarges (m : ModelPkg) : List Nat := m.weights.flatMap (fun w => (List.range w.2).map (· + w.1))

/-- The barges of segment `i`, the last segment being shorter, and the number of segments (R374). -/
def ModelPkg.segmentBarges (m : ModelPkg) (i : Nat) : List Nat := (m.weightBarges.drop (i * segmentLen)).take segmentLen
def ModelPkg.segments (m : ModelPkg) : Nat := ceilDiv (m.weights.map (·.2)).sum segmentLen

/-- A package that can be used: its weight tensors ascend within the shard, and each segment has its reference digest (R374; DEDUCED,
log 149). -/
def ModelPkg.usable (m : ModelPkg) : Bool :=
  m.wellFormed && decide (m.references.length = m.segments) &&
  (m.weights.foldl (fun (a : Bool × Nat) w => (a.1 && decide (a.2 ≤ w.1) && decide (w.1 + w.2 ≤ m.shard.length), w.1 + w.2)) (true, 0)).1

/-- The result words of MODEL_INSTALL. -/
def ModelPkg.words (m : ModelPkg) : List Word := [lo32 m.id, lo32 m.shard.length, lo32 m.segments]

/-- A job of a partition whose weight ranges a run of barges would touch. -/
def State.rangeOwner (s : State) (p first n : Nat) : Option Nat :=
  ((s.ranges.filter (fun r => r.part == p && decide (first < r.first + r.count) && decide (r.first < first + n))).map (·.job)).head?

/-- A command that waits for HBM to leave self-refresh, where it is in it, and otherwise acts (R680). -/
def State.awake (s : State) (c : Cmd) (v : Verdict) : Verdict :=
  if s.mgmt.selfRefresh then .yes (s.wakeHbm.later c (.exit 0)) else v

/-- MODEL_INSTALL action 0 (R353, R612, R613, R619). Action 3 is reserved. -/
def execModelInstallLoad (via : Via) (readable : Bool) (s : State) : Outcome :=
  .next (s.command via 0x0401 (fun c => c.action == 0 || c.action == 3) (fun s c =>
    let p := c.partition
    let model := c.f 0 0 16
    let first := c.f 1 0 25
    Verdict.unless (c.action != 0 || (s.stored model).isSome) St.notReady 4 <|
    Verdict.need (firstBad [c.stray [0xC000FFFF, 0x01FFFFFF], req (c.action == 0) 8]) <|
    Verdict.unless (s.part p).configured St.wrongState 0 <|
    match s.stored model with
    | none => .no St.notReady 4
    | some (at_, m) =>
      match s.rangeOwner p first m.pkg.shard.length with
      | some j => .no St.wrongState (s.job j).state.code
      | none =>
        Verdict.unless ((s.part p).hbmGib != 0 && !s.outsideArea p first m.pkg.shard.length) St.noMemory 0 <|
        Verdict.unless (!m.damaged) St.flashError 5 <|
        Verdict.unless m.pkg.signed St.denied 3 <|
        s.awake c <|
        if readable then
          let s1 := (s.copyShard p first m.pkg (List.range m.pkg.shard.length)).dropMove p (actWho actSweep) 0 model
          let new : Loaded := { part := p, model := model, first := first }
          let kept := s1.loaded.filter (fun (l : Loaded) => !(l.part == p && l.model == model))
          .yes ({ s1 with loaded := kept ++ [new] }.done c m.pkg.words)
        else if c.checkOnly then .no St.flashError 5
        else .yes ((s.flashUe (640 + at_ / 1024) (at_ / 4 % 256)).reply c St.flashError 5 [])))

/-- The 4 KiB units of the model store (R608). -/
def storeUnits : Nat := 15744 * 1024

/-- The tables of model scales of a package obey R149. -/
def ModelPkg.scalesLegal (m : ModelPkg) : Bool :=
  m.images.all (fun i => i.tensors.all (fun t => t.learned.all scaleLegal && t.calibrated.all scaleLegal))

/-- MODEL_INSTALL action 1 (R149, R613, R618): the package goes into the model store, in place of one with its ID. -/
def execModelInstallStore (via : Via) (pkg : ModelPkg) (s : State) : Outcome :=
  .next (s.command via 0x0401 (fun c => c.action == 1) (fun s c =>
    let model := c.f 0 0 16
    let rest := s.flash.models.filter (fun m => m.pkg.id != model)
    Verdict.need (firstBad [c.stray [0xC000FFFF, 0x01FFFFFF], req (c.p 4 != 0) 12]) <|
    s.awake c <|
    Verdict.unless (64 < s.flash.reserve) St.flashError 6 <|
    Verdict.unless (pkg.usable && pkg.id == model) St.flashError 8 <|
    Verdict.unless pkg.signed St.denied 3 <|
    Verdict.unless pkg.scalesLegal St.badParam 8 <|
    Verdict.unless ((rest.map (·.pkg.len4k)).sum + c.p 4 ≤ storeUnits) St.flashError 7 <|
    let new : StoredModel := { pkg := { pkg with len4k := c.p 4 } }
    let s1 := s.rewriteBlocks (640 + (rest.map (·.pkg.len4k)).sum / 1024) ((c.p 4 + 1023) / 1024)
    .yes ({ s1 with flash := { s1.flash with models := rest ++ [new] } }.done c pkg.words)))

/-- MODEL_INSTALL action 2: the model leaves the store, unless a job uses it. -/
def execModelInstallDelete (via : Via) (s : State) : Outcome :=
  .next (s.command via 0x0401 (fun c => c.action == 2) (fun s c =>
    let model := c.f 0 0 16
    Verdict.unless (s.stored model).isSome St.notReady 4 <|
    Verdict.need (firstBad [c.stray [0xC000FFFF, 0x01FFFFFF]]) <|
    match (List.range 96).find? (fun j => (s.job j).state != .free && (s.job j).model == model) with
    | some j => .no St.wrongState (s.job j).state.code
    | none =>
      s.awake c <|
      let s1 := s.each (List.range 12) (fun s p => s.dropMove p (actWho actSweep) 0 model)
      .yes ({ s1 with flash := { s1.flash with models := s1.flash.models.filter (fun m => m.pkg.id != model) },
                      loaded := s1.loaded.filter (fun l => l.model != model) }.done c [lo32 model])))

/-! ## Digests (R374 to R377, R601, R602) -/

/-- The loaded shards that a MODEL_DIGEST names. -/
def State.digested (s : State) (part model : Nat) : List Loaded :=
  s.loaded.filter (fun l => l.model == model && (part == 0xFF || l.part == part))

/-- The package of a model in the store. -/
def State.pkgOf (s : State) (model : Nat) : Option ModelPkg := (s.stored model).map (·.2.pkg)

/-- The result words of MODEL_DIGEST. -/
def State.digestWords (s : State) (part model : Nat) : List Word :=
  let ls := s.digested part model
  let bad := (ls.flatMap (·.last)).eraseDups
  let t := (ls.map (·.ended)).foldl max 0
  let low := match bad with | [] => 0xFFFFFFFF | b :: bs => bs.foldl min b
  [lo32 (((s.pkgOf model).map (·.segments)).getD 0), lo32 bad.length, lo32 low, lo32 t, hi32 t]

/-- Common checks of MODEL_DIGEST. -/
def State.digestNeeds (s : State) (c : Cmd) (v : Verdict) : Verdict :=
  Verdict.need (firstBad [c.stray [0xC000FFFF, 0xFFF], req (c.action < 3) 8,
    req (c.action != 0 || c.f 1 0 12 == 0 || (10 ≤ c.f 1 0 12 && c.f 1 0 12 ≤ 3600)) 9]) <|
  Verdict.unless (!(s.digested c.partition (c.f 0 0 16)).isEmpty) St.wrongState 0 v

/-- MODEL_DIGEST action 0 (R376): the interval in seconds, 0 off. -/
def execModelDigestSetInterval (via : Via) (s : State) : Outcome :=
  .next (s.command via 0x0402 (fun c => c.action == 0) (fun s c =>
    s.digestNeeds c <|
    let n := c.f 1 0 12
    .yes ({ s with integ := { s.integ with digestMin := if n = 0 then none else some n } }.done c
      (s.digestWords c.partition (c.f 0 0 16)))))

/-- The stored lengths of barges of a loaded shard, as a sweep reads them. -/
def State.sweepLens (s : State) (l : Loaded) (is : List Nat) : List Nat :=
  is.map (fun i => max 64 ((s.hbmTag ((s.part l.part).firstBarge + l.first + i)).slen * 64))

/-- Sweeping begins on selected shards; one that is being swept goes on. The sweep's reads ask at the HBM read arbiter of the shard's
partition (R340, R345, R376). -/
def State.beginSweep (s : State) (f : Loaded → Bool) : State :=
  let new := s.loaded.filter (fun l => f l && !l.sweeping)
  let s1 := s.each new (fun s l =>
    let lens := s.sweepLens l (((s.pkgOf l.model).map (·.weightBarges)).getD [])
    s.addMove l.part { who := actWho actSweep, weir := 0, sub := l.model, todo := lens })
  { s1 with loaded := s1.loaded.map (fun l => if new.contains l then { l with sweeping := true, swept := [], bad := [] } else l) }

/-- MODEL_DIGEST action 1: the reply follows the sweep. -/
def execModelDigestSweep (via : Via) (s : State) : Outcome :=
  .next (s.command via 0x0402 (fun c => c.action == 1) (fun s c =>
    let model := c.f 0 0 16
    s.digestNeeds c <|
    Verdict.need ((s.busyWith (fun a => a != actSweep && conflicts a actSweep)).map (fun a => (St.busyMaint, a))) <|
    let s1 := (s.withdraw (fun a => a != actSweep && conflicts a actSweep)).hostStart actSweep
    .yes ((s1.beginSweep (fun l => l.model == model && (c.partition == 0xFF || l.part == c.partition))).later c
      (.sweep c.partition model))))

/-- MODEL_DIGEST action 2, and the reserved action. -/
def execModelDigestRead (via : Via) (s : State) : Outcome :=
  .next (s.command via 0x0402 (fun c => 2 ≤ c.action) (fun s c =>
    s.digestNeeds c <| .yes (s.done c (s.digestWords c.partition (c.f 0 0 16)))))

/-- What a digest covers (R375): each barge's tag and stored bytes, in ascending order. -/
def State.segmentBytes (s : State) (l : Loaded) (is : List Nat) : List Byte :=
  is.flatMap (fun i =>
    let n := (s.part l.part).firstBarge + l.first + i
    (s.hbmTag n).bytes ++ s.hbmBarge n ((s.hbmTag n).slen * 64))

/-- The reads of a segment have all been granted. -/
def State.segmentRead (s : State) (l : Loaded) (m : ModelPkg) (i : Nat) : Bool :=
  let n := m.weightBarges.length
  decide (min n ((i + 1) * segmentLen) + (s.part l.part).left (actWho actSweep) 0 l.model ≤ n)

/-- The writes of a reload ask at the HBM write arbiters (R340, R345, R377), and whether they have all been granted. -/
def State.askReload (s : State) : State :=
  s.each s.loaded (fun s l => match s.pkgOf l.model with
    | some m =>
      let lens := (l.bad ++ l.last).eraseDups.flatMap (fun i => s.sweepLens l (m.segmentBarges i))
      s.addMove l.part { who := actWho actReload, weir := 1, sub := l.model, todo := lens }
    | none => s)
def State.reloadWritten (s : State) : Bool :=
  (List.range 12).all (fun p => (s.part p).moves.all (fun m => m.who != actWho actReload))

/-- A segment's digest differs from the reference (R377, R601, R602): reported; within the hour after a reload the chip is to be retired
and gives its streams away for good, else the segment is reloaded, the lower chip of a pair first where both are at fault. -/
def State.digestFails (s : State) (l : Loaded) (i : Nat) (reference : List Byte) : State :=
  let s1 := s.faultEvent Cause.digestMismatch (some l.part) none i {}
  let s2 := { s1 with integ := { s1.integ with digestBad := (s1.integ.digestBad ++ [i]).eraseDups } }
  if s.integ.chipSuspect then
    let s3 := s2.faultEvent Cause.chipRetire none none 0 {}
    { s3.giveAway (s3.movable true 0) with pair := { (s3.giveAway (s3.movable true 0)).pair with gave := false } }
  else
    let twin := Table.look [] s.integ.twinDigest i
    let both := s.pair.state != .unbound && twin != [] && twin != reference && decide (s.pair.twinChip < s.time.chip)
    if both then s2 else s2.release_ actReload (some 0)

/-- What the two digests of a segment say of the twin (R377, R601): it is at fault when its digest is wrong and this chip's is right. -/
def State.judgeTwin (s : State) (i : Nat) (reference : List Byte) : State :=
  let own := (Table.look ([], 0) s.integ.ownDigest i).1
  let twin := Table.look [] s.integ.twinDigest i
  let rest := s.integ.twinFaults.filter (· != i)
  let bad := s.pair.state != .unbound && own == reference && twin != [] && twin != reference
  { s with integ := { s.integ with twinFaults := if bad then rest ++ [i] else rest } }

/-- The sweep of a shard ends; a host's sweep is answered, and the activity ends with its last shard. -/
def State.endSweep (s : State) (part model : Nat) : State :=
  let fin (l : Loaded) : Loaded :=
    if l.part = part ∧ l.model = model then { l with sweeping := false, swept := [], bad := [], last := l.bad, ended := s.time.now } else l
  let s0 := { s with loaded := s.loaded.map fin }
  let s1 := { s0 with integ := { s0.integ with digestBad := (s0.loaded.flatMap Loaded.last).eraseDups } }
  let above (w : Wait) : Bool := match w.kind with
    | .sweep q m => m == model && !(s1.digested q m).any (·.sweeping)
    | _ => false
  let words (w : Wait) : List Word := match w.kind with
    | .sweep q m => s1.digestWords q m
    | _ => []
  let s2 := s1.answerWaits above (fun w => (St.ok, 0, words w))
  if s2.loaded.any (·.sweeping) then s2 else (s2.endAct actSweep).takeBack

/-- One segment of a loaded shard has been swept (R375, R376): its digest goes to the twin and is compared. -/
def execDigestSegmentDone (part : Fin 12) (model segment : Nat) (s : State) : Outcome :=
  match s.loaded.find? (fun l => l.part == part.val && l.model == model), s.pkgOf model with
  | some l, some m =>
    if !l.sweeping ∨ m.segments ≤ segment ∨ l.swept.contains segment ∨ !s.rst.ready ∨ (s.act actSweep).phase != .running ∨
      !s.segmentRead l m segment then .next s
    else
      let reference := m.references.getD segment []
      let d := sha256 (s.segmentBytes l (m.segmentBarges segment))
      let bad := d != reference
      let s1 := { s with
        integ := { s.integ with ownDigest := Table.put ([], 0) s.integ.ownDigest segment (d, s.time.now) },
        loaded := s.loaded.map (fun v => if v = l then
          { v with swept := v.swept ++ [segment], bad := if bad then v.bad ++ [segment] else v.bad } else v) }
      let s2 := (if s1.pair.state = .unbound then s1 else s1.sendTwin [.digest segment d s.time.now]).judgeTwin segment reference
      let s3 := if bad then s2.digestFails l segment reference else s2
      if (List.range m.segments).all (fun i => i == segment || l.swept.contains i) then .next (s3.endSweep part model)
      else .next s3
  | _, _ => .next s

/-- The twin's digest of a segment (R601): kept; once the twin's digest is right and the pair MIRRORED, a mismatch of this chip that
waited for it is handled. -/
def execDigestExchange (link : Fin 36) (segment : Nat) (digest : List Byte) (_time : Nat) (s : State) : Outcome :=
  if (s.link link).state != .up ∨ s.pair.state = .unbound ∨ !s.rst.ready then .next s
  else
    let references := s.loaded.filterMap (fun l => (s.pkgOf l.model).bind (fun m => m.references[segment]?))
    let s0 := { s with integ := { s.integ with twinDigest := Table.put [] s.integ.twinDigest segment digest } }
    let s1 := references.foldl (fun s r => s.judgeTwin segment r) s0
    if references.contains digest ∧ s.pair.state = .mirrored ∧ s.integ.digestBad.contains segment ∧ !s.integ.chipSuspect then
      .next (s1.release_ actReload (some 0))
    else .next s1

/-- An hour after a reload without a mismatch the chip is no longer suspect (R602). -/
def execChipSuspectExpiry (s : State) : Outcome :=
  if s.integ.chipSuspect ∧ s.integ.digestBad = [] ∧ s.integ.suspectSince + 3600000000000 ≤ s.time.up then
    .next { s with integ := { s.integ with chipSuspect := false } }
  else .next s

/-! ## Controllers -/

/-- A refresh slot of a pseudo-channel (R352). A stack in self-refresh takes no refresh command. -/
def execHbmRefresh (stack : Fin 4) (pc : Fin 32) (s : State) : Outcome :=
  if !(s.stack stack).trained ∨ s.mgmt.selfRefresh then .next s
  else .next (s.modStack stack (fun k => { k with refreshes := Table.upd 0 k.refreshes pc (· + 1) }))

/-- Half of the HBM reference capacity in a 1 s interval, in bytes (R344, R378). -/
def fullLoadBytes : Nat := weirRef 0 * secondNs / 2

/-- The end of a 1 s interval: it is full load when the bytes that all HBM weirs granted in it reach half the reference capacity. When 60
such intervals in a row are complete, each pseudo-channel's margin is checked: `minus` and `plus` say whether every beat matched at −4 and at
+4 steps, 32 channels to a stack (R378, R379). -/
def execFullLoadInterval (minus plus : List Bool) (s : State) : Outcome :=
  if !s.rst.ready ∨ s.time.up < max s.rst.readyUp s.integ.intervalAt + secondNs then .next s
  else
    let n := if fullLoadBytes ≤ s.integ.granted then s.integ.fullLoad + 1 else 0
    let s1 := { s with integ := { s.integ with fullLoad := n, granted := 0, intervalAt := s.time.up } }
    if n < 60 then .next s1
    else
      .next (s1.each [0, 1, 2, 3] (fun s k =>
        if (s.stack k).margin ≠ 0 then s
        else if (List.range 32).all (fun pc => minus.getD (32 * k + pc) true && plus.getD (32 * k + pc) true) then
          (s.modStack k (fun v => { v with margin := 1 })).ledgerChange (fun l =>
            { l with training := Table.put none l.training k ((Table.look none l.training k).map (fun t => (t.1, true))) })
        else
          ((s.modStack k (fun v => { v with margin := 2 })).faultEvent Cause.hbmMargin none none 0 {}).release_ (actRetrain k)
            (some 3600000000000)))

/-- HBM has left self-refresh after 10 µs (R680): commands that waited for it go on. -/
def execHbmSelfRefreshExit (s : State) : Outcome :=
  match s.mgmt.exitAt with
  | none => .next s
  | some t =>
    if s.time.up < t then .next s
    else .next ({ s with mgmt := { s.mgmt with selfRefresh := false, exitAt := none } }.release 0)

end Sys2Proof.Machine
end

