-- ==== Sys2Proof/Machine/Links.lean ====
section
/-! DEFINITION. Meanings of the link messages (11_elcor_links.md R385 to R395, R413 to R419) and of the relay, mirror, retraction and
token messages (12_pairs_and_takeover.md, 16 R578). Each message is taken in at its release from the receiver's hold (R394). -/

namespace Sys2Proof.Machine

/-- A sync message leaves its buffer (R391); one for another chip goes on (R405). -/
def State.sync (s : State) (l dest : Nat) (m : LinkMsg) (here : State → State) : State :=
  if !s.hears l then s
  else
    let s1 := s.freeCredit l 2 1
    if dest ≠ s.time.chip then s1.forward dest [m] else here s1

/-! ## Transfers -/

/-- RUN (R386, R413). -/
def execRunMessage (link : Fin 36) (r : Run) (s : State) : Outcome :=
  if s.hears link then .next (s.recvRun link r) else .next s

/-- A barge of a run (R385, R413). -/
def execBargeReceive (link : Fin 36) (vc : Fin 4) (xfer : Nat) (bytes : List Byte) (tag : Tag) (s : State) : Outcome :=
  if s.hears link then .next (s.recvBarge link vc xfer bytes tag) else .next s

/-- COMMIT of a transfer or of a mirror (R415, R416, R433). -/
def execCommitMessage (link : Fin 36) (c : CommitMsg) (s : State) : Outcome :=
  if !s.hears link then .next s
  else match c with
    | .transfer vc xfer parts sig => .next (s.recvCommit link vc xfer parts sig)
    | .mirror epoch cohort chunk lines => .next (s.recvMirror link epoch cohort chunk lines)

/-- SIGNAL (R283, R286, R287). -/
def execSignalMessage (link : Fin 36) (vc : Fin 4) (dest : Nat) (sig : Signal) (s : State) : Outcome :=
  if !s.hears link then .next s
  else
    let s1 := if vc.val = 2 then s.freeCredit link 2 1 else s
    if dest ≠ s.time.chip then .next (s1.forward dest [.signal vc dest sig])
    else if sig.core < 24 then .next (s1.remoteSignals sig.core [sig])
    else .next s1

/-- A transfer of this chip failed at its destination: the sending job is killed (R413). -/
def execXferFail (link : Fin 36) (dest xfer cause : Nat) (s : State) : Outcome :=
  .next (s.sync link dest (.xferFail dest xfer cause) (fun s =>
    if xfer % 128 < 96 then s.killJob (xfer % 128) (some Cause.xferFail) 0 { link := some link.val } false else s))

/-! ## Credits and replay -/

/-- CREDIT (R391): at most the credits that a link starts with. -/
def execCreditMessage (link : Fin 36) (data mirror sync mgmt : Nat) (s : State) : Outcome :=
  if !s.hears link then .next s
  else
    let add (t : Table Nat) (vc n : Nat) : Table Nat := Table.put 0 t vc (min (Table.look 0 fullCredits vc) (Table.look 0 t vc + n))
    let s1 := s.modLink link (fun k => { k with cred := add (add (add (add k.cred 0 data) 1 mirror) 2 sync) 3 mgmt })
    .next ((s1.drainLink link).feedTwin link)

/-- Freed credits go back in one message: eight of them, or 200 ns after the first (R391). -/
def execLinkCreditReturn (link : Fin 36) (s : State) : Outcome :=
  let k := s.link link
  let n (vc : Nat) := Table.look 0 k.freed vc
  let due : Bool := match k.freedAt with | some t => decide (t + 200 ≤ s.time.up) | none => false
  let total := n 0 + n 1 + n 2 + n 3
  if s.hears link && decide (0 < total) && (due || decide (8 ≤ total)) then
    .next ((s.modLink link (fun k => { k with freed := [], freedAt := none })).sendOn link [.credit (n 0) (n 1) (n 2) (n 3)])
  else .next s

/-- A flit by its number: what was sent under it, an EMPTY flit where nothing else was (R383). -/
def LinkSt.flit (k : LinkSt) (n : Nat) : Flit := ((k.sent.find? (fun e => e.1 == n)).map (·.2)).getD (emptyFlit n)

/-- The 5 flits from the last one whose number is `seq` modulo 2^16 (R388, R393). -/
def LinkSt.resend (k : LinkSt) (seq : Nat) : List Flit :=
  let first := k.txCount - 1 - (k.txCount - 1 + 65536 - seq % 65536) % 65536
  (List.range 5).map (fun i => k.flit (first + i))

/-- NACK: exactly the 5 flits go again, in the next 5 slots (R393). -/
def execNack (link : Fin 36) (seq : Nat) (s : State) : Outcome :=
  if (s.link link).state ≠ .up then .next s
  else
    let s0 := s.fillIdle link
    let s1 := s0.modLink link (fun k => { k with txFlits := k.txFlits + 5, slots := k.slots + 5 })
    .next (s1.emit (.resent link seq ((s0.link link).resend seq)))

/-- One flit is released, 300 ns after its slot (R394): it is counted with the codewords that were corrected, and its failures are
past. -/
def execFlitRelease (link : Fin 36) (decodedAt corrected : Nat) (s : State) : Outcome :=
  if (s.link link).state ≠ .up ∨ s.time.up < decodedAt + 300 then .next s
  else .next (s.modLink link (fun k =>
    let q := (k.rxSeq + 1) % 65536
    { k with rxSeq := q, rxFlits := k.rxFlits + 1, fecCorr := satAdd k.fecCorr corrected,
             fails := k.fails.filter (fun e => !(decide (5 ≤ (q + 65536 - e.1) % 65536) && decide ((q + 65536 - e.1) % 65536 < 32768))) }))

/-! ## Link loss (R421 to R423) -/

/-- A link that carries no traffic any more: what waits on it is lost. -/
def LinkSt.stopped (k : LinkSt) (st : LinkState) : LinkSt :=
  { k with state := st, step := 0, cred := [], dry := [], freed := [], freedAt := none, egress := [], window := [], sent := [],
           txRun := none, txRuns := [], fails := [],
           current := [], open_ := [], waitSince := none, markRx := none, offset := 0, heartbeat := none }

/-- The parent links of the route image. -/
def State.parents (s : State) : List Nat := match s.route with | some r => r.parents | none => []

/-- A link leaves UP; without a parent that is UP the count coasts (R404). -/
def State.linkOut (s : State) (l : Nat) (st : LinkState) : State :=
  let s1 := s.modLink l (fun k => (k.filled s.time.up).stopped st)
  if !s1.time.master ∧ s.time.parent ≠ 0x3F ∧ !s1.parents.any (fun p => (s1.link p).state == .up) then
    { s1 with time := { s1.time with noParent := some (s1.time.noParent.getD s.time.up) } }
  else s1

/-- The key under which a route image lists the variant for this chip's links that are out (R421, R422). -/
def State.variantKey (s : State) : Nat :=
  ((List.range 32).filter (fun l => (s.link l).state == .markedOut)).foldl (fun k l => k * 65536 + s.time.chip * 32 + l + 1) 0

/-- A link of L0 to L31 fails in a running system (R421, R422): marked out, reported, and the chip's streams go to its twin; without a
variant those whose flows cross the link end. A twin link asks for a retrain (R423). -/
def State.linkFails (s : State) (l : Nat) : State :=
  if l < 32 then
    let s1 := ((s.linkOut l .markedOut).ledgerNow (fun g => { g with marked := (g.marked ++ [l]).eraseDups })).faultEvent
      Cause.linkDown none none 0 { link := some l }
    let ps := s1.flowsOn l
    if ps = [] then s1
    else
      let covered := match s1.route with | some r => r.variants.any (fun v => v.1 == s1.variantKey) | none => false
      if !covered then
        let js := (List.range 96).filter (fun j => ((s1.job j).state == .running || (s1.job j).state == .parked) &&
          (s1.job j).image.elcorMin.any (fun e => e.1 == l))
        s1.each js (fun s j => s.each (s.streamsOf j) State.loseStream)
      else s1.giveAway (s1.movable true 0)
  else (s.linkOut l .failed).release_ (actLink l) (some 10000000000)

/-- A codeword pair is uncorrectable (R393, R395): NACK; the second time it is late, the third time the link fails. -/
def execCodewordUncorrectable (link : Fin 36) (seq : Nat) (s : State) : Outcome :=
  if (s.link link).state ≠ .up then .next s
  else
    let n := Table.look 0 (s.link link).fails seq + 1
    let s1 := s.modLink link (fun k => { k with fecUncorr := satAdd k.fecUncorr 1, fails := Table.put 0 k.fails seq n })
    if n = 1 then .next ((s1.modLink link (fun k => { k with replay := satAdd k.replay 1 })).sendOn link [.nack seq])
    else if n = 2 then
      .next (((s1.modLink link (fun k => { k with replayLate := satAdd k.replayLate 1 })).sendOn link [.nack seq]).faultEvent
        Cause.linkReplay none none 0 { link := some link.val })
    else .next (s1.linkFails link)

/-- An UP link fails (R421). -/
def execLinkFailure (link : Fin 36) (s : State) : Outcome :=
  if (s.link link).state = .up then .next (s.linkFails link) else .next s

/-! ## Retained sends (R417 to R419, R729) -/

/-- CHUNK_ACK releases the matching retained sends; each gives RET_LOCK a DRAIN (R418). -/
def execChunkAck (link : Fin 36) (dest src cohort chunk : Nat) (s : State) : Outcome :=
  .next (s.sync link dest (.chunkAck dest src cohort chunk) (fun s => s.each (List.range 24) (fun s c =>
    let mine (r : Retained) : Bool := r.dest == src && r.cohort == cohort && r.chunk == chunk
    let rs := (s.core c).retained.filter mine
    if rs = [] then s
    else
      let s1 := s.modCore c (fun k => { k with retained := k.retained.filter (fun r => !mine r) })
      s1.each (rs.map (fun r => dJob r.entry.words)).eraseDups (fun s j =>
        s.localSignals c j ((rs.filter (fun r => dJob r.entry.words == j)).map (fun r =>
          ({ core := c, lock := r.lock, kind := 2, amount := 1 } : Signal)))))))

/-- A retained transfer's messages for another destination. -/
def Retained.to (r : Retained) (chip : Nat) : List LinkMsg :=
  r.msgs.map (fun m => match m with
    | .run x => .run { x with destChip := chip }
    | m => m)

/-- RETARGET (R419, R729): later sends to the failed chip go to the survivor, and what is retained for it is sent again; a chip that
names itself takes its sends back. -/
def execRetarget (link : Fin 36) (dest failed survivor : Nat) (s : State) : Outcome :=
  .next (s.sync link dest (.retarget dest failed survivor) (fun s =>
    if failed = survivor then { s with subst := Table.put none s.subst failed none }
    else
      let s1 := { s with subst := Table.put none s.subst failed (some survivor) }
      s1.each (List.range 24) (fun s c =>
        let rs := (s.core c).retained.filter (fun r => r.dest == failed)
        let s2 := s.modCore c (fun k => { k with retained := k.retained.map (fun r =>
          if r.dest = failed then { r with dest := survivor, msgs := r.to survivor } else r) })
        s2.each rs (fun s r => s.forward survivor (r.to survivor)))))

/-! ## Acknowledgements -/

/-- Cohorts of running jobs that a test selects, the earliest of a key first. -/
def State.firstCohort (s : State) (f : Nat → Nat → Cohort → Bool) (key : Cohort → Nat) : Option (Nat × Nat) :=
  let cs := s.runningCohorts.filter (fun e => f e.1 e.2 ((s.job e.1).cohort e.2))
  cs.foldl (fun a e => match a with
    | none => some e
    | some b => if key ((s.job e.1).cohort e.2) < key ((s.job b.1).cohort b.2) then some e else some b) none

/-- RELAY_ACK (R31, R427): for the chunk at its boundary, or ahead of it. -/
def execRelayAck (link : Fin 36) (epoch cohort chunk : Nat) (s : State) : Outcome :=
  if !s.hears link then .next s
  else
    let s1 := s.freeCredit link 2 1
    if !s.epochOk epoch then .next s1.stale
    else
      let now := s1.firstCohort (fun _ k h => k == cohort && h.phase == .waitRelay && !h.relayAcked && h.seq == chunk) (·.bk)
      let soon := s1.firstCohort (fun _ k h => k == cohort && h.relayLast && h.upcoming == chunk) (·.bk)
      match now, soon with
      | some e, _ => .next (s1.modCohort e.1 e.2 (fun h => { h with relayAcked := true }))
      | none, some e => .next (s1.modCohort e.1 e.2 (fun h => { h with earlyAck := true }))
      | none, none => .next s1

/-- MIRROR_ACK (R37, R271, R435, R467): the slots that the mirror carried are acknowledged; a late one is counted and reported; the last
one of an initial mirror completes it. -/
def execMirrorAck (link : Fin 36) (epoch cohort chunk : Nat) (s : State) : Outcome :=
  if !s.hears link then .next s
  else
    let s1 := s.freeCredit link 2 1
    if !s.epochOk epoch then .next s1.stale
    else if cohort = 0x3F then .next { s1 with pair := { s1.pair with ownSynced := true } }.syncStep
    else
      match s1.pair.ackOf cohort chunk with
      | none => .next s1
      | some (m, rest) =>
        let s2 := { s1 with pair := { s1.pair with sent := rest } }.mirrorAcked m
        let s3 := s2.modCohort m.job m.cohort (fun h => if h.seq = chunk then { h with mirrorDue := none } else h)
        match m.due with
        | some t =>
          if t < s.time.now then
            .next ({ s3 with pair := { s3.pair with mirrorLate := satAdd s3.pair.mirrorLate 1 } }.faultEvent Cause.mirrorLate
              (some (partOfJob m.job)) (some m.job) 0 {})
          else .next s3
        | none => .next s3

/-- STAND_DOWN (R583): the takeover of R444 with D the arrival time. -/
def execStandDown (link : Fin 36) (epoch _cause : Nat) (s : State) : Outcome :=
  if !s.hears link then .next s
  else
    let s1 := s.freeCredit link 2 1
    if !s.epochOk epoch then .next s1.stale
    else if s1.pair.state = .mirrored ∨ s1.pair.state = .unmirrored ∨ s1.pair.state = .syncing then
      let s2 := s1.takeOver s.time.now
      .next { s2 with pair := { s2.pair with twinState := .yielded } }
    else .next s1

/-! ## Retraction and tokens -/

/-- The cohorts that a retained chunk feeds. -/
def State.fedBy (s : State) (cohort chunk src : Nat) : List (Nat × Nat) :=
  s.runningCohorts.filter (fun e => e.2 == cohort && ((s.job e.1).cohort e.2).retainedFrom.contains (chunk, src))

/-- RETRACT (R458 to R460): an uncommitted chunk is abandoned and re-run, and its own outputs are retracted one stage deeper. A chunk
that is abandoned already and has had no re-sent input since ignores it (R586). -/
def execRetract (link : Fin 36) (dest cohort chunk src reason depth : Nat) (s : State) : Outcome :=
  .next (s.sync link dest (.retract dest cohort chunk src reason depth) (fun s =>
    let s1 := { s with pair := { s.pair with retractRx := satAdd s.pair.retractRx 1 } }
    s1.each ((s1.fedBy cohort chunk src).filter (fun e =>
      !(((s1.job e.1).cohort e.2).seq == chunk && ((s1.job e.1).cohort e.2).abandoned))) (fun s e =>
      let s2 := s.modCohort e.1 e.2 (fun h => { h with
        tokensHeld := h.tokensHeld.filter (fun t => t != (chunk, src)),
        tokensDue := (h.tokensDue ++ [(chunk, src)]).eraseDups })
      let h := (s2.job e.1).cohort e.2
      if h.seq = chunk ∧ (h.phase = .computing ∨ h.phase = .waitRelay) then
        let s3 := (s2.retractChunk e.1 e.2 chunk 2 (depth + 1)).modCohort e.1 e.2 (fun h => { h with retracted := some (reason, depth, src) })
        s3.abandon e.1 e.2
      else s2)))

/-- CHECK_TOKEN (R578). -/
def execCheckToken (link : Fin 36) (dest cohort chunk src rate checked : Nat) (s : State) : Outcome :=
  .next (s.sync link dest (.checkToken dest cohort chunk src rate checked) (fun s =>
    s.each (s.runningCohorts.filter (fun e => e.2 == cohort && (s.job e.1).image.shape.linkFed)) (fun s e =>
      (s.modCohort e.1 e.2 (fun h => { h with
        tokensDue := h.tokensDue.filter (fun t => t != (chunk, src)),
        tokensHeld := (h.tokensHeld ++ [(chunk, src)]).eraseDups })).tokensOf e.1)))

end Sys2Proof.Machine
end

