-- ==== Sys2Proof/Machine/Trains.lean ====
section
/-! DEFINITION. Meanings of link training and of the link commands (11_elcor_links.md R396 to R398, R421, R557) and of schedule time
(R399 to R404). -/

namespace Sys2Proof.Machine

/-! ## Training -/

/-- Nanoseconds in which a link must train (R396). -/
def trainNs : Nat := 80000000

/-- Training starts at step 1 (R396). -/
def LinkSt.begin (k : LinkSt) (up tries : Nat) : LinkSt :=
  { k with state := .training, step := 1, trainAt := up, tries := tries, lanesOk := 0 }

/-- A link starts to train afresh. -/
def State.trainLink (s : State) (l : Nat) : State := (s.linkOut l .training).modLink l (fun k => k.begin s.time.up 0)

/-- Bits of the links of a list that are in a state, counted from a first link. -/
def State.linkBits (s : State) (st : LinkState) (from_ count : Nat) : Nat :=
  ((List.range count).map (fun i => if (s.link (from_ + i)).state = st then 2 ^ i else 0)).sum

/-- LINK_TRAIN's result words RES0 to RES4 (R557). -/
def State.linkWords (s : State) : List Word :=
  [lo32 (s.linkBits .up 0 32),
   pack [(s.linkBits .miswired 32 4, 8), (s.linkBits .failed 32 4, 4), (s.linkBits .up 32 4, 0)],
   lo32 (s.linkBits .failed 0 32), 0, lo32 (s.linkBits .miswired 0 32)]

/-- Commands whose named links have all settled are answered (R558). -/
def State.settleLinks (s : State) : State :=
  let done (w : Wait) : Bool := match w.kind with
    | .links named => named.all (fun l => (s.link l).state != .training)
    | _ => false
  s.answerWaits done (fun _ => (St.ok, 0, s.linkWords))

/-- A link's training ends in a state. -/
def State.trained (s : State) (l : Nat) (st : LinkState) : State :=
  let s1 := s.modLink l (fun k => { k with state := st, step := 0, trainMs := (s.time.up - k.trainAt) / 1000000 })
  (if (s1.act (actLink l)).phase = .idle then s1 else s1.endAct (actLink l)).settleLinks

/-- This end's hello check (R397): the neighbour that the route image lists, with the same digest. -/
def State.helloOk (s : State) (l : Nat) (f : TrainFinding) : Bool :=
  match s.route with
  | some r => f.peerDigest == r.digest && r.expect.any (fun e => e.1 == l && e.2.1 == f.peerChip && e.2.2 == f.peerPort)
  | none => false

/-- A training step completes (R396, R397). Steps 1 to 3 need all four lanes. -/
def execLinkTrainingStep (link : Fin 36) (f : TrainFinding) (s : State) : Outcome :=
  let k := s.link link
  let next (g : LinkSt → LinkSt) : State := s.modLink link (fun k => { g k with step := k.step + 1 })
  if k.state ≠ .training ∨ !s.rst.ready ∨ k.trainAt + trainNs < s.time.up then .next s
  else if k.step < 3 then
    let s1 := s.modLink link (fun k => { k with lanesOk := f.lanes % 16 })
    if f.lanes % 16 = 15 then .next (s1.modLink link (fun k => { k with step := k.step + 1 })) else .next s1
  else if k.step = 3 then
    let s1 := s.modLink link (fun k => { k with lanesOk := f.lanes % 16 })
    if f.lanes % 16 = 15 then
      .next ((s1.modLink link (fun k => { k with step := 4 })).emit
        (.link link (.hello s.time.chip link ((s.route.map (·.digest)).getD 0))))
    else .next s1
  else if k.step = 4 then
    let s1 := s.modLink link (fun k => { k with peerChip := f.peerChip % 2048, peerPort := f.peerPort % 64 })
    let own := s.helloOk link f
    if own && f.peerOk then .next (s1.modLink link (fun k => { k with step := 5 }))
    else
      let s2 := if own then s1 else s1.emit (.helloFail link)
      .next ((s2.trained link .miswired).faultEvent Cause.linkMiswired none none 0 { link := some link.val })
  else if k.step = 5 then .next (next (fun k => { k with delay := BitVec.ofNat 16 f.delay }))
  else
    .next ((s.modLink link (fun k => { k with
      cred := fullCredits, freed := [], freedAt := none, upAt := s.time.up, txCount := 0, slots := 0, rxSeq := 0 })).trained link .up)

/-- A link has not reached UP in time (R398): it is FAILED, and trained again twice. -/
def execLinkTrainTimeout (link : Fin 36) (s : State) : Outcome :=
  let k := s.link link
  if k.state ≠ .training ∨ s.time.up < k.trainAt + trainNs then .next s
  else if k.tries < 2 then .next (s.modLink link (fun k => k.begin s.time.up (k.tries + 1)))
  else .next (s.trained link .failed)

/-! ## LINK_TRAIN and LINK_STATUS (R557, R558) -/

/-- Links that a LINK_TRAIN names. -/
def Cmd.links (c : Cmd) : List Nat :=
  ((List.range 32).filter (fun i => bitAt (c.p 1) i)) ++ (((List.range 4).filter (fun i => bitAt (c.p 2) i)).map (· + 32))

/-- The checks that every LINK_TRAIN passes. -/
def State.linkNeeds (s : State) (c : Cmd) (routes : Option RouteImage) (v : Verdict) : Verdict :=
  Verdict.need (firstBad [c.stray [0xC00007FF, 0xFFFFFFFF, 0xF], req (c.action < 3) 8,
    req (c.addr 3 == 0 || routes.isSome) 11, req ((c.addr 3 == 0) == (c.p 5 == 0)) 13]) <|
  Verdict.unless (!s.time.chipValid || c.f 0 0 11 == s.time.chip) St.wrongState 0 v

/-- A route image takes effect, with its transit reservations (R409). -/
def State.setRoutes (s : State) (r : RouteImage) : State :=
  { s with route := some r }.each (List.range 36) (fun s l =>
    s.modLink l (fun k => { k with transit := ((r.transit.find? (fun (e : Nat × Nat) => e.1 == l)).map (fun (e : Nat × Nat) => e.2)).getD 0 }))

/-- The chip takes its ID and a new route image. -/
def State.identify (s : State) (c : Cmd) (routes : Option RouteImage) : State :=
  let s1 := { s with time := { s.time with chip := c.f 0 0 11, chipValid := true } }
  match routes with
  | some r => if c.addr 3 = 0 then s1 else s1.setRoutes r
  | none => s1

/-- Activities that stand in the way of training links. -/
def linkClash (named : List Nat) (a : Nat) : Bool := named.any (fun l => a != actLink l && conflicts a (actLink l))

/-- Train the named links that are not MARKED_OUT; the reply comes once all of them have settled. -/
def State.trainLinks (s : State) (c : Cmd) : Verdict :=
  Verdict.need ((s.busyWith (linkClash c.links)).map (fun a => (St.busyMaint, a))) <|
  let s1 := s.withdraw (linkClash c.links)
  let s2 := s1.each c.links (fun s l =>
    if (s.link l).state = .markedOut then s else (s.trainLink l).hostStart (actLink l))
  .yes ((s2.later c (.links c.links)).settleLinks)

/-- LINK_TRAIN action 0, and the reserved action (R396, R398). -/
def execLinkTrain (via : Via) (routes : Option RouteImage) (s : State) : Outcome :=
  .next (s.command via 0x0611 (fun c => c.action == 0 || c.action == 3) (fun s c =>
    s.linkNeeds c routes <| (s.identify c routes).trainLinks c))

/-- Links that RUNNING flows or the pair use. -/
def State.linkInUse (s : State) (l : Nat) : Bool :=
  (List.range 12).any (fun p => (s.jobsIn p .running).any (fun j => (s.job j).image.elcorMin.any (fun e => e.1 == l))) ||
  (s.pair.state != .unbound && (decide (32 ≤ l) || (s.pair.spare && s.toTwin.contains l)))

/-- LINK_TRAIN action 1: the named links go DOWN. A MARKED_OUT link keeps its state, which only the ledger's record ends. -/
def execLinkTrainStop (via : Via) (routes : Option RouteImage) (s : State) : Outcome :=
  .next (s.command via 0x0611 (fun c => c.action == 1) (fun s c =>
    s.linkNeeds c routes <|
    match c.links.find? s.linkInUse with
    | some l => .no St.wrongState (s.link l).state.code
    | none =>
      let stop (s : State) (l : Nat) : State :=
        if (s.link l).state = .markedOut then s
        else
          let s1 := s.linkOut l .down
          if (s1.act (actLink l)).phase = .idle then s1 else s1.endAct (actLink l)
      let s1 := ((s.identify c routes).each c.links stop).settleLinks
      .yes (s1.done c s1.linkWords)))

/-- LINK_TRAIN action 2: MARKED_OUT is cleared in the ledger, then the links train. -/
def execLinkTrainClear (via : Via) (routes : Option RouteImage) (s : State) : Outcome :=
  .next (s.command via 0x0611 (fun c => c.action == 2) (fun s c =>
    s.linkNeeds c routes <|
    let s1 := s.identify c routes
    let out := c.links.filter (fun l => (s.link l).state == .markedOut)
    let s2 := if out = [] then s1 else s1.ledgerNow (fun g => { g with marked := g.marked.filter (fun l => !out.contains l) })
    let s3 := s2.each out (fun s l => s.modLink l (fun k => { k with state := .down }))
    s3.trainLinks c))

/-- LINK_STATUS (R557). -/
def execLinkStatus (via : Via) (s : State) : Outcome :=
  .next (s.command via 0x0612 (fun _ => true) (fun s c =>
    let l := c.f 0 0 6
    Verdict.need (firstBad [c.stray [0x3F], req (l < 36) 8]) (.yes (s.done c (s.link l).words))))

/-! ## Link-failure variants (R421, R422) -/

/-- The variant of the route image takes effect; a chip whose flows use a link that is out restarts with its shard's variant. While it
alone holds the pair's streams the restart waits (R661). -/
def execLinkVariantSwitch (variant : Nat) (s : State) : Outcome :=
  match s.route with
  | none => .next s
  | some r =>
    match r.variants.find? (fun v => v.1 == variant) with
    | none => .next s
    | some v =>
      let s1 := { s with route := some { r with routes := v.2 } }
      let hit := (List.range 32).any (fun l => (s.link l).state == .markedOut && !(s.flowsOn l).isEmpty)
      if !hit then .next s1
      else if s.aloneWithStreams then .next { s1 with rst := { s1.rst with deferred := some .linkVariant } }
      else .next (s1.warmReset .linkVariant)

/-! ## Schedule time (R399 to R404) -/

/-- A new parent: the first of the image's that is UP, where the present one is not (R404). -/
def State.pickParent (s : State) : State :=
  let t := s.time
  if t.master then s
  else if t.parent ≠ 0x3F ∧ (s.link t.parent).state = .up then { s with time := { t with noParent := none } }
  else
    match s.parents.find? (fun p => (s.link p).state == .up) with
    | some p => { s with time := { t with parent := p, noParent := none } }
    | none => s

/-- The lock counters after an offset against the parent (R402). -/
def TimeSt.count (t : TimeSt) (o : Int) : TimeSt :=
  let t1 : TimeSt := { t with offset := o, adjust := -o }
  if o.natAbs ≤ 20 then
    let lock := t.locked || decide (10 ≤ t.good + 1)
    { t1 with good := min 10 (t.good + 1), bad := 0, locked := lock, suspect := if lock then false else t.suspect }
  else { t1 with good := 0, bad := min 3 (t.bad + 1), locked := t.locked && decide (t.bad + 1 < 3) }

/-- A marker of the parent: the count jumps forward once, at first lock, and is slewed from then on (R401, R402). -/
def State.parentMark (s : State) (o : Int) : State :=
  if !s.time.jumped then
    if o < 0 then
      { s with time := { s.time with now := s.time.now + o.natAbs, jumped := true, offset := o, adjust := 0 },
               links := Table.mapV {} s.links (fun _ k => { k with offset := 0, markRx := none }) }
    else { s with time := { s.time.count o with jumped := true } }
  else { s with time := s.time.count o }

/-- UP neighbours, and those that disagree with the chip (R403). -/
def State.neighbours (s : State) : List Nat :=
  (((List.range 36).filter (fun l => (s.link l).state == .up)).map (fun l => (s.link l).peerChip)).eraseDups
def State.disagreeing (s : State) : List Nat :=
  s.neighbours.filter (fun c => (List.range 36).any (fun l =>
    (s.link l).state == .up && (s.link l).peerChip == c && decide (50 < (s.link l).offset.natAbs)))

/-- More than half of the neighbours disagree (R403): SUSPECT, reported; the streams go to the twin, and the chip relocks to an alternate
parent. -/
def State.timeSuspect (s : State) : State :=
  if s.time.suspect ∨ (!s.time.locked && !s.time.master) ∨ 2 * s.disagreeing.length ≤ s.neighbours.length then s
  else
    let s1 := { s with time := { s.time with suspect := true } }.faultEvent Cause.timeDisagree none none 0 {}
    let s2 := s1.giveAway (s1.movable true 0)
    if s2.time.master then s2
    else
      let alt := s2.parents.find? (fun p => (s2.link p).state == .up && p != s2.time.parent)
      { s2 with time := { s2.time with parent := alt.getD s2.time.parent, locked := false, good := 0, bad := 0 } }

/-- TIME_MARK (R400 to R403): the peer's send time, the echo of this chip's marker, the time at which the peer received it. -/
def execTimeMark (link : Fin 36) (send echo recv : Nat) (s : State) : Outcome :=
  if !s.hears link then .next s
  else
    let now := s.time.now
    let s1 := (s.modLink link (fun k => { k with markRx := some (send, now) })).pickParent
    if echo = 0 then .next s1
    else
      let o : Int := (((now : Int) - send) - ((recv : Int) - echo)) / 2
      let s2 := s1.modLink link (fun k => { k with offset := o })
      let s3 := if 50 < o.natAbs then { s2 with time := { s2.time with disagree := satAdd s2.time.disagree 1 } } else s2
      let s4 := if !s3.time.master ∧ s3.time.parent = link.val then s3.parentMark o else s3
      .next (if s3.time.suspect ∧ !s4.time.suspect then s4.takeBack else s4.timeSuspect)

/-- TIME_MARK_SEND (R400): the marker of an UP link, with the last one received. -/
def execTimeMarkSend (link : Fin 36) (s : State) : Outcome :=
  let m := ((s.link link).markRx).getD (0, 0)
  .next (s.sendOn link [.timeMark s.time.now m.1 m.2])

/-- No parent has been UP for 1 ms (R404). -/
def execNoParentTimeout (s : State) : Outcome :=
  match s.time.noParent with
  | none => .next s
  | some t =>
    if s.time.up < t + 1000000 ∨ s.time.master ∨ s.parents.any (fun p => (s.link p).state == .up) then .next s
    else .next { s with time := { s.time with locked := false, good := 0 } }

/-- A rising edge on TIME_IN (R399): the master goes toward the nearest whole second. -/
def execTimeInEdge (s : State) : Outcome :=
  let t := s.time
  if t.master ∧ t.ppsEn then
    let near := (t.now + secondNs / 2) / secondNs * secondNs
    .next { s with time := { t with adjust := (near : Int) - t.now } }
  else .next s

/-- TIME_OUT goes high for 1 µs at each whole second of the master's schedule time (R399, R720). -/
def execTimeOutPulse (s : State) : Outcome :=
  let t := s.time
  let whole := t.now / secondNs * secondNs
  if t.timeOut then
    if !t.master ∨ t.pulseAt + 1000 ≤ t.now then .next { s with time := { t with timeOut := false } } else .next s
  else if t.master ∧ t.now < whole + 1000 ∧ t.pulseAt ≠ whole then
    .next ({ s with time := { t with timeOut := true, pulseAt := whole } }.emit (.timeOut whole))
  else .next s

end Sys2Proof.Machine
end

