-- ==== Sys2Proof/Machine/Pairs.lean ====
section
/-! DEFINITION. Meanings of the pair commands (12_pairs_and_takeover.md R424 to R426, R453, R467, R468) and of the heartbeats, witness
messages, decisions, handovers and re-mirrors of a pair (R436 to R455). -/

namespace Sys2Proof.Machine

/-! ## Hearing the twin -/

/-- The re-mirror activity is over. -/
def State.endRemirror (s : State) : State :=
  if (s.act actRemirror).phase = .idle then s else s.endAct actRemirror

/-- What a pair state that the twin announces leads to (R453, R455, R467). -/
def State.hearTwin (s : State) (state : PairState) : State :=
  let s1 := { s with pair := { s.pair with twinState := state } }
  match s1.pair.state, state with
  | .bound, .syncing => { s1 with pair := { s1.pair with state := .syncing } }.startMirror
  | .syncing, .syncing => if !s1.pair.mirrorSyncing && !s1.pair.ownSynced then s1.startMirror else s1
  | .mirrored, .yielded => s1.takePlanned false
  | .yielded, .mirrored => s1.takePlanned true
  | .solo, .mirrored =>
    if s.pair.twinState = .yielded then
      (s1.each (s1.movable false 0) (fun s e => s.giveCohort s.time.now e)).endHandover { give := false, at_ := s1.time.now, moving := [] }
    else s1
  | .solo, .yielded =>
    let s2 := s1.answerWaits (fun w => w.kind == .mirror) (fun _ => (St.ok, 0, []))
    { s2 with pair := { s2.pair with mirrorSyncing := false } }.endRemirror
  | _, _ => s1

/-- Since when three twin links have been UP with heartbeats (R467). -/
def State.noteLinks (s : State) : State :=
  let n := twinLinks.countP (fun l => (s.link l).state == .up && s.linkAlive l)
  { s with pair := { s.pair with linksUpSince := if 3 ≤ n then some (s.pair.linksUpSince.getD s.time.up) else none } }

/-- The twin is heard on a link (R426, R438): quiet time starts afresh, and the epoch is the one that it announces. -/
def State.twinAlive (s : State) (l epoch : Nat) : State :=
  let s1 := s.modLink l (fun k => { k with heartbeat := some s.time.up })
  { s1 with pair := { s1.pair with
      aliveAt := s.time.up, twinEpoch := some epoch, pinged := false, echoed := false,
      decided := if s.pair.decided = 3 then 3 else 0 } }

/-- HEARTBEAT (R426, R436, R438), on a twin link and from the bound twin. -/
def execHeartbeat (link : Fin 36) (state epoch sender _seq _time : Nat) (s : State) : Outcome :=
  if !s.hears link ∨ link.val < 32 ∨ s.pair.state = .unbound ∨ s.pair.state = .fenced ∨ s.pair.spare ∨ sender ≠ s.pair.twinChip then
    .next s
  else .next (((s.twinAlive link epoch).noteLinks).hearTwin (.ofCode state)).syncStep

/-- The chip generates heartbeats: its self-check passes and no reset is under way (R436, R437, R441, R658). -/
def State.beats (s : State) : Bool :=
  s.rst.ready && s.rst.quiesce.isNone && !s.rst.railFault && !s.pair.isolated && s.pair.state != .fenced && !s.pair.pad.contains false

/-- Send a ping along a first link. -/
def State.pingOn (s : State) (route l : Nat) : State :=
  let seq := s.pair.pingSeq.toNat
  let s1 := s.sendOn l [.ping route s.pair.epoch.toNat s.time.chip seq s.pair.twinChip s.time.now]
  { s1 with pair := { s1.pair with pings := s1.pair.pings.filter (fun p => p.1 != route) ++ [(route, seq, s.time.now)],
                                   pingSeq := s1.pair.pingSeq + 1 } }

/-- The first links of the witness routes with their numbers (R439). -/
def State.witnessRoutes (s : State) : List (Nat × Nat) :=
  let w := match s.route with | some r => r.witness.take 2 | none => []
  (List.range w.length).zip w

/-- HEARTBEAT_SEND (R436, R437, R456): a toggle of TWIN_HB_OUT with its read-back and, of a bound chip, a heartbeat on each UP twin link;
to a spare, pings along the spare path and one witness route instead. -/
def execHeartbeatSend (padLevel : Bool) (s : State) : Outcome :=
  if !s.beats then .next s
  else if s.pair.spare then
    let w := (s.witnessRoutes.take 1).map (fun e => (0, e.2))
    .next (s.each (w ++ s.toTwin.map (fun l => (1, l))) (fun s e => s.pingOn e.1 e.2))
  else
    let level := !s.pair.wire
    let same := padLevel == level
    let s1 := { s with pair := { s.pair with wire := level, hbOutOk := same, pad := lastN 3 (s.pair.pad ++ [same]) } }.emit
      (.heartbeatWire level)
    if s.pair.state = .unbound then .next s1
    else
      let m := LinkMsg.heartbeat s.pair.state.code s.pair.epoch.toNat s.time.chip s.pair.hbSeq.toNat s.time.now
      let s2 := s1.each s1.twinUp (fun s l => s.sendOn l [m])
      .next { s2 with pair := { s2.pair with hbSeq := s2.pair.hbSeq + 1 } }

/-- An edge on TWIN_HB_IN (R438). -/
def execTwinHbInEdge (s : State) : Outcome :=
  if !s.rst.ready then .next s
  else if s.pair.spare then .next { s with pair := { s.pair with hbInAt := some s.time.up } }
  else .next { s with pair := { s.pair with
    hbInAt := some s.time.up, aliveAt := s.time.up, pinged := false, echoed := false,
    decided := if s.pair.decided = 4 then 4 else 0 } }

/-! ## Witness (R439, R440) -/

/-- A bound chip that is not fenced. -/
def State.watches (s : State) : Bool := s.pair.state != .unbound && s.pair.state != .fenced && s.rst.ready && s.rst.quiesce.isNone

/-- Quiet time has reached 100 µs: a ping goes out along each witness route. -/
def execQuietWitnessPing (s : State) : Outcome :=
  if !s.watches ∨ s.pair.isolated ∨ s.pair.pinged ∨ s.pair.spare ∨ s.quiet < 100000 then .next s
  else
    let s1 := s.each s.witnessRoutes (fun s e => s.pingOn e.1 e.2)
    .next { s1 with pair := { s1.pair with pinged := true } }

/-- WITNESS_PING: forwarded, or answered by its target. A spare's pings stand for its heartbeats (R456). -/
def execWitnessPing (link : Fin 36) (route epoch sender seq target time : Nat) (s : State) : Outcome :=
  if !s.hears link then .next s
  else if target ≠ s.time.chip then .next (s.forward target [.ping route epoch sender seq target time])
  else
    let s1 := if s.pair.spare ∧ sender = s.pair.twinChip then s.twinAlive link epoch else s
    if s1.pair.isolated ∨ s1.pair.state = .fenced then .next s1
    else if !s1.epochOk epoch then .next s1.stale
    else .next (s1.sendOn link [.echo route s1.pair.state.code s1.pair.epoch.toNat s1.time.chip seq sender time])

/-- WITNESS_ECHO: forwarded, or counted where it answers a ping in time. -/
def execWitnessEcho (link : Fin 36) (route state epoch sender seq target time : Nat) (s : State) : Outcome :=
  if !s.hears link then .next s
  else if target ≠ s.time.chip then .next (s.forward target [.echo route state epoch sender seq target time])
  else if !s.pair.pings.contains (route, seq, time) ∨ time + 40000 < s.time.now then .next s
  else
    let s1 := { s with pair := { s.pair with
      pings := s.pair.pings.filter (fun p => p != (route, seq, time)), echoed := true, witnessOk := true } }
    if s.pair.spare then .next ((s1.twinAlive link epoch).hearTwin (.ofCode state)).syncStep else .next s1

/-- A ping has not been echoed within 40 µs. -/
def execWitnessTimeout (route : Fin 2) (s : State) : Outcome :=
  let late (p : Nat × Nat × Nat) : Bool := p.1 == route.val && decide (p.2.2 + 40000 < s.time.now)
  if s.pair.pings.any late then
    .next { s with pair := { s.pair with pings := s.pair.pings.filter (fun p => !late p), witnessOk := false } }
  else .next s

/-! ## The decision (R441, R442) -/

/-- A heartbeat on a twin link within 200 µs; of a spare, an answer. -/
def State.twinLinksAlive (s : State) : Bool := if s.pair.spare then decide (s.quiet < 200000) else twinLinks.any s.linkAlive

/-- A shared clock that the twin drives has been seen within 200 µs. -/
def State.sharedClocks (s : State) : Bool := s.wharves.any (fun e => e.2.state == .standby && s.recent e.2.sharedAt)

/-- A state in which a failed twin is taken over (R467). -/
def PairState.takes : PairState → Bool
  | .mirrored | .unmirrored | .syncing | .yielded => true
  | _ => false

/-- MIRRORED ends (R467). -/
def State.unmirror (s : State) : State :=
  if s.pair.state = .mirrored then
    { s with pair := { s.pair with state := .unmirrored, twinSynced := false, ownSynced := false, linksUpSince := none, sent := [] } }
  else s

/-- A SOLO chip whose twin is lost keeps everything, and resumes what it had begun to give (R454, R457). -/
def State.loseTaker (s : State) : State :=
  let s1 := s.resumeKept.answerWaits (fun w => w.kind == .handover) (fun _ => (St.wrongState, 5, []))
  { s1 with pair := { s1.pair with handover := none, mirrorSyncing := false, twinState := .unbound } }

/-- TWIN_DECISION: the first row of R442 that matches; `localFault` says that the chip's own link ports report a local fault. A row is
reported once until the condition changes. -/
def execTwinDecision (localFault : Bool) (s : State) : Outcome :=
  let linksDown := twinLinks.all (fun l => (s.link l).state != .up)
  let row (n : Nat) (s : State) : State := { s with pair := { s.pair with decided := n } }
  if !s.watches then .next s
  else if s.pair.isolated ∨ (linksDown ∧ !s.wireAlive ∧ localFault) then .next s.fence
  else if s.twinLinksAlive then
    if s.wireAlive then .next (row 0 s)
    else if s.pair.decided = 3 then .next s
    else .next ((row 3 s).faultEvent Cause.hbWire none none 0 {})
  else if s.wireAlive then
    if s.pair.decided = 4 ∨ !s.pair.state.takes then .next s else .next ((row 4 s).unmirror.mirrorLost 2 [])
  else if s.pair.echoed then
    if s.pair.decided = 5 ∨ !s.pair.state.takes then .next s
    else .next (((row 5 s).unmirror.mirrorLost 3 []).faultEvent Cause.twinCut none none 0 {})
  else if s.sharedClocks then
    if s.pair.decided = 6 ∨ !s.pair.state.takes then .next s
    else .next ((row 6 s).unmirror.faultEvent Cause.twinContend none none 0 {})
  else if s.quiet < 200000 then .next s
  else if s.pair.state.takes then .next (s.takeOver s.time.now)
  else if s.pair.state = .solo ∧ s.pair.twinState ≠ .unbound then .next s.loseTaker
  else .next s

/-- The restore of a takeover ends once its reads have been granted (R345, R444). -/
def execRestoreComplete (s : State) : Outcome :=
  if s.pair.restoreAt.isSome && s.restoreRead then .next s.endRestore else .next s

/-- A condition of the self-check fails (R437, R441): the chip is isolated and fences itself. -/
def execSelfCheckFail (c : SelfCheck) (s : State) : Outcome :=
  if !s.rst.ready ∨ s.rst.quiesce.isSome then .next s
  else match c with
    | .pad => if s.pair.pad.contains false then .next s.fence else .next s
    | .watchdog => .next s.fence
    | .clocks => .next s.fence
    | .supply => .next s.fence

/-! ## Planned handover and re-mirror -/

/-- This chip, YIELDED, holds the last mirror of every cohort that it would take back (R453). -/
def State.mayTakeBack (s : State) : Bool :=
  s.pair.twinState == .solo && s.pair.mirror.all (fun e => match e.2.valid, e.2.stream with
    | true, some st => decide (st.adm.cohort < (s.job st.adm.job).own) || st.state == .paused ||
        s.current st.adm.job st.adm.cohort s.time.now e.2
    | _, _ => true)

/-- The handover time has come (R453): every cohort whose last mirror the taker holds moves; another one moves a chunk later. A YIELDED chip
that takes its streams back takes its cohorts then. -/
def execHandoverTime (s : State) : Outcome :=
  match s.pair.handover with
  | none => .next s
  | some h =>
    if s.time.now < h.at_ ∨ !s.watches then .next s
    else if s.pair.state = .yielded then
      if s.mayTakeBack then .next (s.takePlanned true) else .next s
    else
      let go := h.moving.filter s.mayMove
      let rest := h.moving.filter (fun e => !s.mayMove e)
      let h' : Handover := { h with moving := rest }
      let s1 := s.each go (fun s e => s.giveCohort h.at_ e)
      if rest = [] then .next (s1.endHandover h')
      else .next { s1 with pair := { s1.pair with handover := some h' } }

/-- The re-mirror of an UNMIRRORED chip whose twin links have been back for 1 s (R467). -/
def execRemirrorStart (s : State) : Outcome :=
  let a := s.act actRemirror
  let back : Bool := match s.noteLinks.pair.linksUpSince with | some t => decide (t + secondNs ≤ s.time.up) | none => false
  if s.pair.state = .unmirrored ∧ back ∧ (a.phase = .granted ∨ a.phase = .running) then
    let s1 := s.modAct actRemirror (fun a => { a with phase := .running })
    .next { s1 with pair := { s1.pair with state := .syncing } }.startMirror
  else .next s

/-! ## Commands (R468, R556) -/

/-- The chip that PAIR_BIND may name: the other twin, or the pair's spare (R424, R456). -/
def State.bindable (s : State) (twin : Nat) (spare : Bool) : Bool :=
  if spare then (match s.route with | some r => (r.spare.map (·.1)) == some twin | none => false)
  else s.time.chipValid && twin == (s.time.chip ^^^ 1)

/-- The conditions of R425; for a spare, its path is UP. -/
def State.bindReady (s : State) (twin : Nat) (spare : Bool) : Bool :=
  if spare then (match s.route with
    | some r => (match r.spare with | some e => (s.link e.2).state == .up | none => false)
    | none => false)
  else decide (3 ≤ twinLinks.countP (fun l => (s.link l).state == .up && (s.link l).peerChip == twin)) && s.recent s.pair.hbInAt

/-- PAIR_BIND (R424 to R426, R456). -/
def execPairBind (via : Via) (s : State) : Outcome :=
  .next (s.command via 0x0601 (fun _ => true) (fun s c =>
    let twin := c.f 0 0 11
    let spare := bitAt (c.p 0) 16
    Verdict.need (firstBad [c.stray [0x000107FF], req (s.bindable twin spare) 8]) <|
    Verdict.unless (s.pair.state == .unbound || s.pair.state == .solo) St.wrongState s.pair.state.code <|
    Verdict.unless (s.bindReady twin spare) St.notReady 3 <|
    let p := s.pair
    let p1 : Pair := { p with
      state := if p.state = .unbound then .bound else .solo, spare := spare, asSpare := spare && p.state == .unbound,
      twinChip := twin, epoch := p.epoch + 1, twinEpoch := none, twinState := .unbound, aliveAt := s.time.up, decided := 0,
      pinged := false, echoed := false, mirrorSyncing := false, ownSynced := false, twinSynced := false, linksUpSince := none }
    .yes ({ s with pair := p1 }.done c [BitVec.ofNat 32 p1.epoch.toNat])))

/-- Activities that stand in the way of a re-mirror. -/
def remirrorClash (a : Nat) : Bool := a != actRemirror && conflicts a actRemirror

/-- PAIR_MIRROR_START (R467): the reply comes on MIRRORED, or once the twin is YIELDED. -/
def execPairMirrorStart (via : Via) (s : State) : Outcome :=
  .next (s.command via 0x0602 (fun _ => true) (fun s c =>
    Verdict.unless (s.pair.state == .bound || s.pair.state == .solo) St.wrongState s.pair.state.code <|
    Verdict.unless (s.pair.twinState == .bound) St.wrongState s.pair.twinState.code <|
    Verdict.need ((s.busyWith remirrorClash).map (fun a => (St.busyMaint, a))) <|
    s.awake c <|
    let s1 := (s.withdraw remirrorClash).hostStart actRemirror
    let s2 := if s1.pair.state = .bound then { s1 with pair := { s1.pair with state := .syncing } } else s1
    .yes (s2.later c .mirror).startMirror))

/-- PAIR_HANDOVER (R453, R468): `give` from MIRRORED, else RETURN from SOLO to a YIELDED twin. -/
def State.handoverCmd (s : State) (c : Cmd) (give : Bool) : Verdict :=
  let legal := if give then s.pair.state == .mirrored else s.pair.state == .solo && s.pair.twinState == .yielded
  let deciding := decide (100000 ≤ s.quiet) || s.pair.restoreAt.isSome || s.pair.standing.isSome
  Verdict.need (firstBad [c.stray [1, 0xFFFFFFFF]]) <|
  Verdict.unless (legal && !deciding) St.wrongState s.pair.state.code <|
  match s.pair.handover with
  | some h => .no St.wrongState (if h.give then 6 else 3)
  | none =>
    Verdict.need ((s.busyWith actHandover).map (fun a => (St.busyMaint, a))) <|
    let s1 := (s.withdraw actHandover).beginHandover give (s.movable give (c.p 1))
    .yes ({ s1 with pair := { s1.pair with gave := false } }.later c .handover)

/-- PAIR_HANDOVER with direction GIVE. -/
def execPairHandoverGive (via : Via) (s : State) : Outcome :=
  .next (s.command via 0x0603 (fun c => !bitAt (c.p 0) 0) (fun s c => s.handoverCmd c true))

/-- PAIR_HANDOVER with direction RETURN. -/
def execPairHandoverReturn (via : Via) (s : State) : Outcome :=
  .next (s.command via 0x0603 (fun c => bitAt (c.p 0) 0) (fun s c => s.handoverCmd c false))

/-- PAIR_STATUS (R468, R556). -/
def execPairStatus (via : Via) (s : State) : Outcome :=
  .next (s.command via 0x0604 (fun _ => true) (fun s c => .yes (s.done c s.pairWords)))

/-- PAIR_UNBIND (R467, R468): the mirror area is discarded. -/
def execPairUnbind (via : Via) (s : State) : Outcome :=
  .next (s.command via 0x0605 (fun _ => true) (fun s c =>
    Verdict.unless (s.pair.state == .bound || s.pair.state == .unmirrored || s.pair.state == .yielded) St.wrongState s.pair.state.code <|
    let s1 := { s.dropMirror with pair := { s.dropMirror.pair with
      state := .unbound, spare := false, asSpare := false, twinEpoch := none, twinState := .unbound, kept := [], handover := none,
      mirrorSyncing := false, ownSynced := false, twinSynced := false, linksUpSince := none, pings := [], decided := 0, sent := [],
      carriedPlane := none, gave := false } }
    .yes (s1.done c [])))

end Sys2Proof.Machine
end

