-- ==== Sys2Proof/Machine/Integrity.lean ====
section
/-! DEFINITION. Meanings of check timers, scans, core health commands, signature records and pattern packages
(16_integrity_and_field_test.md, 17 R626). -/

namespace Sys2Proof.Machine

/-! ## Check timers -/

/-- A check that is incomplete 40 µs after its first CRC is late (R575). -/
def execCheckTimerExpiry (part : Fin 12) (id : Nat) (s : State) : Outcome :=
  let late (e : Check) : Bool := e.id == id && (e.orig.isNone || e.dup.isNone) && decide (e.since + 40000 ≤ s.time.up)
  match (s.check part).checks.find? late with
  | some e => .next (s.checkLate part e)
  | none => .next s

/-! ## Passes of segments (R594 to R600) -/

/-- Segments of a focus set whose condition a record of the core matches run first in a pass of a SUSPECT core (R607). -/
def State.focusSegments (s : State) (c : Nat) : List Nat :=
  match s.integ.pkg with
  | none => []
  | some p =>
    let rs := (s.integ.ring ++ s.integ.held).filter (fun r => r.core == some c)
    ((p.focus.filter (fun f => rs.any (fun r => r.unit == f.1 && r.cause == f.2.1 && r.site == f.2.2.1))).flatMap
      (fun f => f.2.2.2)).eraseDups

/-- Segments of a pass (R597): 100 of group A, else as many as the package holds. -/
def State.segmentsIn (s : State) (kind : Nat) : Nat :=
  match s.integ.pkg with
  | some p => if kind = 0 then 100 else if kind = 1 then p.groupB else p.bist
  | none => if kind = 0 then 100 else 0

/-- The order of a pass. -/
def State.passOrder (s : State) (c kind : Nat) : List Nat :=
  let all := List.range (s.segmentsIn kind)
  let first := if kind = 0 ∧ (s.healthOf c).state = 1 then (s.focusSegments c).filter (fun n => all.contains n) else []
  first ++ all.filter (fun n => !first.contains n)

/-- A pass begins, unless another one is under way on the core. -/
def State.beginPass (s : State) (c kind : Nat) : State :=
  if (s.healthOf c).pass.isSome then s
  else s.modHealth c (fun h => { h with
    pass := some kind, todo := s.passOrder c kind, ran := 0, retry := false, failed := false, pattern := 0xFFFFFFFF })

/-- What a segment leaves behind (R593, R595): accumulators and tiles undefined, every row FP32, the weight sets and the check set EMPTY;
registers, memories, tags, locks, queues, operand cache and flight table unchanged. -/
def State.afterSegment (s : State) (c : Nat) : State :=
  let e := s.newEpoch
  e.2.modCore c (fun k => { k with
    me := { k.me with acc := { epoch := epochOf e.1 c 2 }, mode := [], set0 := {}, set1 := {}, checkSet := {} },
    ve := { k.ve with tiles := { epoch := epochOf e.1 c 4 } } })

/-- A core is GOOD again (R589). -/
def State.restoreHealth (s : State) (c : Nat) : State :=
  (s.modHealth c (fun h => { h with state := 0, source := 0, passes := 0 })).ledgerNow (fun l =>
    { l with health := Table.put (0, 0) l.health c (0, 0) })

/-- A record of a scan event or a self-test failure with its map of failing cells (R603, R604). -/
def State.scanRecord (s : State) (cls cause c seg pattern : Nat) (map : Bool) : State :=
  let s1 := s.signature cls cause (some c) 1 [seg, pattern] none (0, 0)
  if !map then s1
  else
    let d := s1.draw
    let cells := (List.range (Config.freeNat d.1 % 513)).map (fun i => Config.freeOut d.1 i)
    match d.2.integ.held.getLast? with
    | some r => { d.2 with integ := { d.2.integ with held := d.2.integ.held.dropLast ++ [{ r with failmap := cells }] } }
    | none => d.2

/-- A segment fails for the second time (R599): the core becomes RETIRING, except for arrays with spare rows. -/
def State.scanFailure (s : State) (c kind seg pattern : Nat) : State :=
  if kind = 2 then s.scanRecord 5 Cause.bistFail c seg pattern true
  else
    let self := kind == 0 && decide (96 ≤ seg)
    let cause := if self then Cause.bistFail else Cause.scanFail
    ((s.markHealth c 6 2).scanRecord (if self then 5 else 4) cause c seg pattern true).event Ev.fault (some (partOfCore c)) none cause seg
      ({ core := some c : FaultAt }).words

/-- The passes after a stand-down (R590): both cores of the partition have both; when all four have passed, the chip says so and stays
YIELDED. -/
def State.standScan (s : State) (c kind : Nat) (failed : Bool) : State :=
  match s.integ.afterStand with
  | none => s
  | some x =>
    if x.part ≠ partOfCore c ∨ 2 ≤ kind then s
    else
      let bit := 2 * (c % 2) + kind
      let x' : StandScan := { x with ended := if bitAt x.ended bit then x.ended else x.ended + 2 ^ bit, failed := x.failed || failed }
      if x'.ended ≠ 15 then { s with integ := { s.integ with afterStand := some x' } }
      else
        let s1 := { s with integ := { s.integ with afterStand := none } }
        if x'.failed then s1 else s1.faultEvent Cause.checkPermanent (some x.part) none 0xFFFF {}

/-- A pass ends: counted (R588, R589), its activity done, TEST_SCAN answered, and another pass of the core that waits begins. -/
def State.endPass (s : State) (c kind : Nat) : State :=
  let h := s.healthOf c
  let s1 := s.modHealth c (fun h => { h with
    pass := none, lastA := if kind = 0 then s.time.up else h.lastA, lastB := if kind = 1 then s.time.up else h.lastB,
    lastBist := if kind = 2 then s.time.up else h.lastBist,
    scanPasses := if kind = 0 then satAdd h.scanPasses 1 else h.scanPasses,
    passes := if kind ≠ 0 ∨ h.state ≠ 1 then h.passes else if h.failed then 0 else satAdd h.passes 1 })
  let s2 := if (s1.healthOf c).state = 1 ∧ 144 ≤ (s1.healthOf c).passes.toNat then s1.restoreHealth c else s1
  let s3 := (s2.endAct (passAct c kind)).standScan c kind h.failed
  let s4 := if kind = 0 then s3.answerWaits (fun w => w.kind == .scan c) (fun _ =>
      (St.ok, 0, [pack [(h.ran % 256, 8), (b2n (!h.failed), 0)], lo32 h.pattern]))
    else s3
  let s5 := if kind = 1 then s4.takeBack else s4
  match [0, 1, 2].find? (fun k => (s5.act (passAct c k)).phase == .granted || (s5.act (passAct c k)).phase == .running) with
  | some k => s5.beginPass c k
  | none => s5

/-- A segment has run on a core with its outcome: `pattern` is the first failing pattern. The first failure is repeated at the next gate,
a passing repeat is logged, the second failure is a scan failure (R599). -/
def State.segmentEnd (s : State) (c : Nat) (pass : Bool) (pattern : Nat) : State :=
  let h := s.healthOf c
  match h.pass, h.todo with
  | some kind, seg :: rest =>
    let s0 := (s.afterSegment c).modAct (passAct c kind) (fun a => { a with phase := .running })
    if !pass ∧ !h.retry then s0.modHealth c (fun h => { h with retry := true, segFail := satAdd h.segFail 1 })
    else
      let s1 := if pass then (if h.retry then s0.scanRecord 3 Cause.scanFail c seg pattern false else s0)
        else (s0.modHealth c (fun h => { h with segFail := satAdd h.segFail 1 })).scanFailure c kind seg pattern
      let s2 := s1.modHealth c (fun h => { h with
        todo := rest, ran := h.ran + 1, retry := false, failed := h.failed || !pass,
        pattern := if pass ∨ h.failed then h.pattern else pattern })
      if rest = [] then s2.endPass c kind else s2
  | some kind, [] => s.endPass c kind
  | none, _ => s

/-- The load of the gate that a segment held returns 1 (R594). -/
def CoreSt.leaveGate (k : CoreSt) : CoreSt :=
  match k.cc.stall with
  | .scan rd => { k with cc := { (k.cc.setReg rd 1) with stall := .none } }
  | _ => k

/-- SCAN_SEGMENT_END: the segment at a core's gate ends; on a core whose control core is halted, or for a group B pass, segments run back
to back without a gate (R598, R600). -/
def execScanSegmentEnd (core : Fin 24) (pass : Bool) (response : Word) (s : State) : Outcome :=
  if s.integ.scanCore = some core.val then
    let s1 := s.modCore core CoreSt.leaveGate
    .next ({ s1 with integ := { s1.integ with scanCore := none } }.segmentEnd core pass response.toNat)
  else if s.segmentPlaced core ∧ ((s.live (partOfCore core)).isEmpty ∨ (s.healthOf core).pass = some 1) then
    .next (s.segmentEnd core pass response.toNat)
  else .next s

/-! ## TEST_SCAN and TEST_OBSERVE (R557, R558, R600) -/

/-- Activities in the way of another. -/
def clash (id a : Nat) : Bool := a != id && conflicts a id

/-- TEST_SCAN action 0, and the reserved actions: a group A pass at once, or the one under way; the reply follows its last segment. -/
def execTestScanNow (via : Via) (s : State) : Outcome :=
  .next (s.command via 0x0701 (fun c => c.action != 1) (fun s c =>
    let k := c.f 0 0 5
    let id := actScan k false
    Verdict.need (firstBad [c.stray [0xC000001F, 0xFFFF], req (c.action == 0 && k < 24) 8]) <|
    Verdict.need ((s.busyWith (clash id)).map (fun a => (St.busyMaint, a))) <|
    .yes ((((s.withdraw (clash id)).hostStart id).beginPass k 0).later c (.scan k))))

/-- TEST_SCAN action 1 (R597): the interval of the core. -/
def execTestScanInterval (via : Via) (s : State) : Outcome :=
  .next (s.command via 0x0701 (fun c => c.action == 1) (fun s c =>
    let k := c.f 0 0 5
    let n := c.f 1 0 16
    Verdict.need (firstBad [c.stray [0xC000001F, 0xFFFF], req (k < 24) 8, req (10 ≤ n && n ≤ 1440) 9]) <|
    .yes ((s.modHealth k (fun h => { h with intervalMin := n })).done c [0, 0xFFFFFFFF])))

/-- The field checks of TEST_OBSERVE. -/
def Cmd.observeBad (c : Cmd) : Option (Nat × Nat) := firstBad [c.stray [0xC000001F], req (c.action < 3 && c.f 0 0 5 < 24) 8]

/-- The result words of TEST_OBSERVE. -/
def Health.words (h : Health) : List Word := [lo32 h.state, h.transient, h.permanent]

/-- TEST_OBSERVE action 0, and the reserved action. -/
def execTestObserveRead (via : Via) (s : State) : Outcome :=
  .next (s.command via 0x0703 (fun c => c.action == 0 || c.action == 3) (fun s c =>
    Verdict.need c.observeBad (.yes (s.done c (s.healthOf (c.f 0 0 5)).words))))

/-- TEST_OBSERVE action 1: the core is SUSPECT (R587). -/
def execTestObserveMark (via : Via) (s : State) : Outcome :=
  .next (s.command via 0x0703 (fun c => c.action == 1) (fun s c =>
    let k := c.f 0 0 5
    Verdict.need c.observeBad <|
    let s1 := s.markHealth k 4 1
    .yes (s1.done c (s1.healthOf k).words)))

/-- TEST_OBSERVE action 2: a SUSPECT core is GOOD again (R589). -/
def execTestObserveClear (via : Via) (s : State) : Outcome :=
  .next (s.command via 0x0703 (fun c => c.action == 2) (fun s c =>
    let k := c.f 0 0 5
    Verdict.need c.observeBad <|
    let s1 := if (s.healthOf k).state = 1 then s.restoreHealth k else s
    .yes (s1.done c (s1.healthOf k).words)))

/-! ## Retirement (R591, R592) -/

/-- The spare of a core's row is in use or marked failed (R592). -/
def State.spareUsed (s : State) (c : Nat) : Bool := s.flash.pending.failedSites.contains (s.spareSite (coreRow c))

/-- The ledger's part of a retirement: the row's remap, with the retired site marked as failed. -/
def State.retireSite (s : State) (c : Nat) : State :=
  let site := s.siteOf c
  let m := s.coreMap.set (coreRow c) (remapWord (s.coreMap.getD (coreRow c) 0) (c % 6))
  let s1 := s.ledgerNow (fun l => { l with
    coreMap := m, failedSites := (l.failedSites ++ [site]).eraseDups, health := Table.put (0, 0) l.health c (0, 0) })
  { s1.modHealth c (fun h => { h with state := 0, source := 0 }) with rst := { s1.rst with retired := some c } }

/-- CORE_RETIRE (R558, R591, R592): the spare-remap activity, behind a handover where the chip is MIRRORED. The reply comes before the
restart. -/
def execCoreRetire (via : Via) (s : State) : Outcome :=
  .next (s.command via 0x0704 (fun _ => true) (fun s c =>
    let k := c.f 0 0 5
    let id := actRemap k
    let job := (List.range 96).find? (fun j => (s.job j).state != .free)
    Verdict.need (firstBad [c.stray [0x1F], req (k < 24) 8]) <|
    Verdict.unless (s.pair.state == .mirrored || s.pair.state == .unbound) St.wrongState s.pair.state.code <|
    Verdict.unless (s.pair.state == .mirrored || job.isNone) St.wrongState ((job.map (fun j => (s.job j).state.code)).getD 0) <|
    Verdict.unless (!s.spareUsed k) St.denied 6 <|
    Verdict.need ((s.busyWith (clash id)).map (fun a => (St.busyMaint, a))) <|
    let s1 := (s.withdraw (clash id)).hostStart id
    if s1.pair.state = .mirrored then
      let s2 := if s1.pair.handover.isNone then s1.beginHandover true (s1.movable true 0) else s1
      .yes (s2.done c [])
    else
      let s2 := (s1.retireSite k).done c []
      .yes { s2 with rst := { s2.rst with afterReply := some (c.origin.code, c.seq, .retire) } }))

/-! ## Signature records (R603 to R605, R626) -/

/-- An RFC 8949 head: major type and argument in the shortest form. -/
def cborHead (major n : Nat) : List Byte :=
  let b (v : Nat) : Byte := BitVec.ofNat 8 v
  if n < 24 then [b (major * 32 + n)]
  else if n < 2 ^ 8 then b (major * 32 + 24) :: (leBytes 1 n)
  else if n < 2 ^ 16 then b (major * 32 + 25) :: (leBytes 2 n).reverse
  else if n < 2 ^ 32 then b (major * 32 + 26) :: (leBytes 4 n).reverse
  else b (major * 32 + 27) :: (leBytes 8 n).reverse

/-- Unsigned and signed integers, arrays of unsigned integers, byte strings. -/
def cborUint (n : Nat) : List Byte := cborHead 0 n
def cborInt (i : Int) : List Byte := if 0 ≤ i then cborHead 0 i.toNat else cborHead 1 (-1 - i).toNat
def cborArray (ns : List Nat) : List Byte := cborHead 4 ns.length ++ ns.flatMap cborUint
def cborBytes (bs : List Byte) : List Byte := cborHead 2 bs.length ++ bs

/-- The keys of a record with their encoded values, ascending (R604). -/
def SigRec.pairs (r : SigRec) : List (Nat × List Byte) :=
  [(0, cborUint r.index), (1, cborUint r.time), (2, cborUint r.chip), (3, cborUint r.fw), (4, cborUint r.patterns),
    (5, cborUint r.cls), (6, cborUint r.cause)] ++
  (match r.core with | some c => [(7, cborUint c), (8, cborUint r.site)] | none => []) ++
  [(9, cborUint r.unit), (10, cborArray r.detail)] ++
  (if r.failmap = [] then [] else [(11, cborBytes r.failmap)]) ++
  [(12, cborInt r.tj), (13, cborUint (Config.freeNat r.draw % 65536))] ++
  (match r.job with | some j => [(14, cborUint j)] | none => []) ++
  [(15, cborArray [r.chunk.1, r.chunk.2]), (16, cborUint r.boots), (17, cborUint r.health)]

/-- A record's bytes. -/
def SigRec.bytes (r : SigRec) : List Byte := cborHead 5 r.pairs.length ++ r.pairs.flatMap (fun p => cborUint p.1 ++ p.2)

/-- A record as SIGNATURE_EXPORT writes it: its header, its bytes, zeros to a multiple of 8 (R605). -/
def SigRec.export_ (r : SigRec) : List Byte :=
  let bs := r.bytes
  wordsToBytes [lo32 r.index, lo32 bs.length, crc32c bs, 0] ++ bs ++ List.replicate ((8 - bs.length % 8) % 8) 0

/-- Records in turn, up to a count and a size: their bytes, their number, and those that were left. -/
def exportRecords : Nat → Nat → List SigRec → List Byte × Nat × List SigRec
  | _, _, [] => ([], 0, [])
  | 0, _, rs => ([], 0, rs)
  | n + 1, room, r :: rs =>
    let b := r.export_
    if room < b.length then ([], 0, r :: rs)
    else
      let t := exportRecords n (room - b.length) rs
      (b ++ t.1, t.2.1 + 1, t.2.2)

/-- Cut bytes into data messages of at most 1,024 bytes with their offsets (R673). -/
def cutData (bs : List Byte) : List (Nat × List Byte) :=
  (List.range ((bs.length + 1023) / 1024)).map (fun i => (1024 * i, (bs.drop (1024 * i)).take 1024))

/-- Answer with data: written into the host buffer before the reply, or sent after it over the towpath (R674). -/
def State.doneWith (s : State) (c : Cmd) (addr : Nat) (bytes : List Byte) (res : List Word) : State :=
  match c.origin with
  | .ring fn => (if bytes = [] then s else s.emit (.dmaWrite fn addr bytes)).done c res
  | .tow ep => (s.done c res).emits ((cutData bytes).map (fun d => .towData ep c.seq d.1 d.2))

/-- SIGNATURE_EXPORT (R605). -/
def execSignatureExport (via : Via) (s : State) : Outcome :=
  .next (s.command via 0x0705 (fun _ => true) (fun s c =>
    Verdict.need (firstBad [c.stray [0xFFFFFFFF, 0xFFFF], req (c.p 4 % 64 == 0) 12]) <|
    let all := s.integ.ring ++ s.integ.held
    let oldest := (all.head?.map (·.index)).getD s.integ.sigNext.toNat
    let r := exportRecords (c.f 1 0 16) (c.p 4) (all.filter (fun e => c.p 0 ≤ e.index))
    let next := (r.2.2.head?.map (·.index)).getD s.integ.sigNext.toNat
    .yes (s.doneWith c (c.addr 2) r.1 [lo32 r.2.1, lo32 r.1.length, lo32 next, lo32 oldest])))

/-- Records that the ring in flash holds: 64 blocks of 256 pages of 16 records. -/
def ringRecords : Nat := 262144

/-- SIGNATURE_FLUSH (R603): the held records go into the ring; each block that the ring enters is erased (R615). -/
def execSignatureFlush (s : State) : Outcome :=
  if s.integ.held = [] ∨ !s.rst.ready then .next s
  else
    let ring := lastN ringRecords (s.integ.ring ++ s.integ.held)
    let entered := (s.integ.held.filter (fun r => r.index % 4096 == 0)).map (fun r => 576 + r.index / 4096 % 64)
    let s1 := s.each entered (fun s b => s.rewriteBlocks b 1)
    .next { s1 with integ := { s1.integ with
      ring := ring, held := [], sigOldest := lo32 ((ring.head?.map (·.index)).getD 0) } }

/-- RING_CHECKPOINT (R626): at most once per hour. -/
def execRingCheckpoint (s : State) : Outcome :=
  if !s.rst.ready ∨ s.time.up < s.flash.checkpointAt + 3600000000000 then .next s
  else
    let next := match s.integ.ring.getLast? with | some r => r.index + 1 | none => s.integ.sigOldest.toNat
    let s1 := { s with flash := { s.flash with checkpointAt := s.time.up } }
    .next (s1.ledgerChange (fun l => { l with checkpoint := (s.integ.sigOldest.toNat, next) }))

/-! ## Pattern packages (R606) -/

/-- How far received ranges reach without a hole from byte 0. -/
def reach (got : List (Nat × Nat)) : Nat :=
  (List.range got.length).foldl (fun pos _ => got.foldl (fun m g => if g.1 ≤ m then max m (g.1 + g.2) else m) pos) 0

/-- The data message state of a towpath command. -/
def State.dataOf (s : State) (c : Cmd) : Option DataIn :=
  match c.origin with
  | .ring _ => none
  | .tow ep => (s.mgmt.ep ep).dataIn.find? (fun d => d.seq == c.seq)

/-- A towpath command whose data has not all come goes on waiting among the accepted ones (R674); over a ring, or with its data
complete, it acts. -/
def State.withData (s : State) (c : Cmd) (want : Nat) (v : State → Verdict) : Verdict :=
  match c.origin with
  | .ring _ => v s
  | .tow ep =>
    match s.dataOf c with
    | some d => if d.want ≤ reach d.got then v (s.dropData c) else .yes { s with accepted := c :: s.accepted }
    | none =>
      let d : DataIn := { seq := c.seq, want := want, got := [] }
      .yes { s with accepted := c :: s.accepted, mgmt := s.mgmt.modEp ep (fun e => { e with dataIn := e.dataIn ++ [d] }) }

/-- A package passes step 2 of R606. -/
def State.patternOk (s : State) (p : PatternPkg) : Bool :=
  p.signed && p.device == 0x3612 && decide (s.flash.pending.pattern.toNat < p.version.toNat) &&
  decide (p.minFw.toNat ≤ s.flash.version.toNat)

/-- PATTERN_INSTALL (R606, R618). -/
def execPatternInstall (via : Via) (pkg : PatternPkg) (s : State) : Outcome :=
  .next (s.command via 0x0706 (fun _ => true) (fun s c =>
    Verdict.need (firstBad [req (1 ≤ c.p 2 && c.p 2 ≤ 524288) 10]) <|
    Verdict.need ((s.busyWith (clash actPattern)).map (fun a => (St.busyMaint, a))) <|
    Verdict.unless (64 < s.flash.reserve) St.flashError 6 <|
    Verdict.unless ((s.flash.models.map (·.pkg.len4k)).sum + c.p 2 ≤ storeUnits) St.flashError 7 <|
    (s.withdraw (clash actPattern)).withData c (4096 * c.p 2) (fun s =>
      Verdict.unless (s.patternOk pkg) St.denied 3 <|
      let s0 := s.rewriteBlocks 64 ((c.p 2 + 1023) / 1024)
      let s1 := { s0 with integ := { s0.integ with pkg := some pkg, patternVersion := pkg.version, libValid := true } }
      .yes ((s1.ledgerChange (fun l => { l with pattern := pkg.version })).done c [pkg.version]))))

end Sys2Proof.Machine
end

