-- ==== Sys2Proof/Machine/Flashes.lean ====
section
/-! DEFINITION. Meanings of the firmware, ledger and flash commands and of the flash's own events (17_flash_and_ledger.md, R557,
R558). -/

namespace Sys2Proof.Machine

/-! ## Firmware (R634, R635) -/

/-- FW_UPDATE: the image that is not running is written and verified. -/
def execFwUpdate (via : Via) (img : FwImage) (s : State) : Outcome :=
  .next (s.command via 0x0801 (fun _ => true) (fun s c =>
    Verdict.need (firstBad [req (1 ≤ c.p 2 && c.p 2 ≤ 16384) 10]) <|
    Verdict.need ((s.busyWith (fun a => conflicts a actFirmware)).map (fun a => (St.busyMaint, a))) <|
    (s.withdraw (conflicts actFirmware)).withData c (4096 * c.p 2) (fun s =>
      let i := 1 - s.flash.fwImage
      let s1 := s.rewriteBlocks (16 * i) ((c.p 2 + 1023) / 1024)
      if img.valid s.flash.svn then
        .yes ({ s1 with flash := s1.flash.setImage i (some img) }.done c [img.version, lo32 i])
      else if c.checkOnly then .no St.denied 3
      else .yes ({ s1 with flash := s1.flash.setImage i none }.reply c St.denied 3 []))))

/-- FW_ACTIVATE: the image becomes PENDING; with NOW = 1 a warm reset follows the reply. -/
def execFwActivate (via : Via) (s : State) : Outcome :=
  .next (s.command via 0x0802 (fun _ => true) (fun s c =>
    let i := c.f 0 0 1
    let now := bitAt (c.p 0) 8
    Verdict.need (firstBad [c.stray [0x101]]) <|
    Verdict.unless (!now || s.pair.state == .unbound || (s.pair.state == .yielded && s.streams == [])) St.wrongState s.pair.state.code <|
    Verdict.unless (s.flash.valid i) St.denied 3 <|
    let s1 := (s.ledgerNow (fun l => { l with fwPending := some i })).done c []
    .yes (if now then { s1 with rst := { s1.rst with afterReply := some (c.origin.code, c.seq, .fwActivate) } } else s1)))

/-! ## The ledger (R623 to R625) -/

/-- Bytes of entries (R623): TYPE and length, then the data padded to a multiple of 8. -/
def entryBytes (type : Nat) (data : List Byte) : List Byte :=
  wordsToBytes [pack [(type, 16)], lo32 data.length] ++ data ++ List.replicate ((8 - data.length % 8) % 8) 0

/-- The mask of failed sites. -/
def siteMask (sites : List Nat) : Nat := (sites.eraseDups.map (fun n => 2 ^ n)).sum

/-- The numbers of an entry whose byte layout no rule gives, in ascending key order, one list to an entry (R624). -/
def Ledger.numbers (l : Ledger) (type : Nat) : List (List Nat) :=
  match type with
  | 2 => l.rowsApplied.map (fun e => [0, e.1, e.2.1, e.2.2]) ++ l.rowsPending.map (fun e => [1, e.1, e.2.1, e.2.2])
  | 3 => l.hbmApplied.map (fun e => [0, e.1, e.2.1, e.2.2]) ++ l.hbmPending.map (fun e => [1, e.1, e.2.1, e.2.2])
  | 4 => l.training.filterMap (fun e => e.2.map (fun t => [e.1, t.1.toNat, b2n t.2]))
  | 5 => l.parts.map (fun e => e.1 :: (e.2.configure ++ e.2.weirs.flatMap id).map (·.toNat))
  | 6 => l.steering.map (fun e => e.1 / 2 ^ 32 :: e.1 % 2 ^ 32 :: e.2.map (fun o => (BitVec.ofInt 32 o).toNat))
  | 7 => [[l.checkpoint.1, l.checkpoint.2]]
  | 8 => l.health.map (fun e => [e.1, e.2.1, e.2.2])
  | 9 => l.marked.map (fun n => [n])
  | 11 => [[l.fwActive, match l.fwPending with | some p => p + 1 | none => 0]]
  | _ => []

/-- Every entry of a TYPE, each with its header (R624). -/
def Ledger.read (l : Ledger) (type : Nat) : List Byte :=
  if type = 1 then entryBytes 1 (wordsToBytes (l.coreMap ++ [lo32 (siteMask l.failedSites)]))
  else if type = 10 then entryBytes 10 (wordsToBytes [l.pattern])
  else if 0x100 ≤ type ∧ type < 0x200 then
    (match l.host.find? (fun e => e.1 == type - 0x100) with
    | some e => entryBytes type e.2
    | none => [])
  else (l.numbers type).flatMap (fun ns => entryBytes type (Config.ledgerLayout type ns))

/-- LEDGER_READ. -/
def execLedgerRead (via : Via) (s : State) : Outcome :=
  .next (s.command via 0x0803 (fun _ => true) (fun s c =>
    Verdict.need (firstBad [c.stray [0xFFFF], req (c.p 3 % 64 == 0) 11]) <|
    let bs := (s.flash.ledger.read (c.f 0 0 16)).take (c.p 3)
    .yes (s.doneWith c (c.addr 1) bs [lo32 bs.length, s.flash.seq])))

/-- Bytes of host records after a write. -/
def hostTotal (t : Table (List Byte)) : Nat := (t.map (fun e => e.2.length)).sum

/-- LEDGER_WRITE: host records are replaced, steering baselines cleared; every other TYPE is denied. -/
def execLedgerWrite (via : Via) (data : List Byte) (s : State) : Outcome :=
  .next (s.command via 0x0804 (fun _ => true) (fun s c =>
    let type := c.f 0 0 16
    let n := c.p 3
    let host := decide (0x100 ≤ type) && decide (type < 0x200)
    let bytes := data.take n ++ List.replicate (n - data.length) 0
    let table := Table.put [] s.flash.pending.host (type - 0x100) bytes
    Verdict.need (firstBad [c.stray [0xFFFF], req (n % 64 == 0 && n ≤ 65536) 11]) <|
    Verdict.unless (host || type == 6) St.denied 1 <|
    Verdict.need (firstBad [req (if host then hostTotal table ≤ 131072 else n == 0) 11]) <|
    Verdict.need ((s.busyWith (clash actLedger)).map (fun a => (St.busyMaint, a))) <|
    let s1 := (s.withdraw (clash actLedger)).ledgerNow (fun l => if host then { l with host := table } else { l with steering := [] })
    .yes (s1.done c [lo32 n, s1.flash.seq])))

/-! ## Health (R557) -/

/-- Erase counts of the blocks in use: highest and mean. -/
def Flash.wear (f : Flash) : Nat × Nat :=
  let es := (f.erases.filter (fun e => f.inUse e.1)).map (·.2)
  (es.foldl max 0, es.sum / 16384)

/-- The result words of FLASH_HEALTH. -/
def State.flashWords (s : State) : List Word :=
  let w := s.flash.wear
  [s.flash.bad, lo32 w.1, lo32 w.2, lo32 ((s.time.now - s.flash.dredgeLast.toNat) / minuteNs), s.flash.refreshed]

/-- FLASH_HEALTH action 0, and the reserved actions. -/
def execFlashHealthSummary (via : Via) (s : State) : Outcome :=
  .next (s.command via 0x0805 (fun c => c.action != 1) (fun s c =>
    Verdict.need (firstBad [c.stray [0xC0000000], req (c.action == 0) 8]) (.yes (s.done c s.flashWords))))

/-- FLASH_HEALTH action 1 (R619): one page as the flash holds it. -/
def execFlashHealthRawRead (via : Via) (page : List Byte) (readable : Bool) (s : State) : Outcome :=
  .next (s.command via 0x0805 (fun c => c.action == 1) (fun s c =>
    Verdict.need (firstBad [c.stray [0xC0000000], req (c.p 1 < 16384) 9, req (c.p 2 < 256) 10]) <|
    if readable then .yes (s.doneWith c (c.addr 3) (page.take 16384 ++ List.replicate (16384 - page.length) 0) s.flashWords)
    else if c.checkOnly then .no St.flashError 5
    else .yes ((s.flashUe (c.p 1) (c.p 2)).reply c St.flashError 5 [])))

/-! ## Dredge (R616, R620 to R622) -/

/-- The dredge interval in minutes: 24 h to 70 °C, 24 h × 2^(−(T − 70) / 10) rounded down to 95 °C, then 60. -/
def dredgeMinutes (t : Int) : Nat :=
  if t ≤ 70 then 1440
  else if 95 < t then 60
  else (List.range 1441).foldl (fun best m => if m ^ 10 * 2 ^ (t - 70).toNat ≤ 1440 ^ 10 then m else best) 0

/-- The dredge's due time comes forward with the temperature and never moves later. -/
def State.dredgeDueNow (s : State) : State :=
  let d := s.flash.dredgeStart + dredgeMinutes s.flash.maxTemp * minuteNs
  let due := if s.flash.dredgeDue ≤ s.flash.dredgeStart then d else min s.flash.dredgeDue d
  let s1 := { s with flash := { s.flash with dredgeDue := due } }
  if (s1.act actDredge).phase = .idle then s1 else s1.modAct actDredge (fun a => { a with due := some due })

/-- DREDGE_INTERVAL_UPDATE: once a minute. -/
def execDredgeIntervalUpdate (s : State) : Outcome := if s.rst.ready then .next s.dredgeDueNow else .next s

/-- A block is refreshed (R621): its pages go to a free block and the old one is erased; a second time within 7 days it becomes bad. -/
def State.refreshBlock (s : State) (n : Nat) : State :=
  let last := Table.look 0 s.flash.refreshedAt n
  let s1 := { s with flash := { s.flash with refreshed := satAdd s.flash.refreshed 1, refreshedAt := Table.put 0 s.flash.refreshedAt n (s.time.up + 1) } }
  if last ≠ 0 ∧ s.time.up < last + weekNs then s1.growBad n 4
  else
    let old := s1.flash.phys n
    let f := s1.flash.place n s.time.now 4
    { s1 with flash := { f with erases := Table.upd 0 f.erases old (· + 1) } }

/-- Wear levelling (R616): with more than 1,000 erases between the blocks in use, the least-erased one moves. -/
def State.levelWear (s : State) : State :=
  let f := s.flash
  let least := (List.range 16384).foldl (fun b n => if Table.look 0 f.erases (f.phys n) < Table.look 0 f.erases (f.phys b) then n else b) 0
  if Table.look 0 f.erases (f.phys least) + 1000 < f.wear.1 then s.rewriteBlocks least 1 else s

/-- DREDGE_READ: one read of a pass, with what it finds; the last one ends the pass. -/
def execDredgeRead (r : DredgeRead) (s : State) : Outcome :=
  let a := s.act actDredge
  if !s.rst.ready ∨ (a.phase ≠ .granted ∧ a.phase ≠ .running) ∨ 16384 ≤ r.block then .next s
  else
    let s1 := (s.modAct actDredge (fun a => { a with phase := .running, steps := a.steps + 1 }))
    let s2 := if r.uncorrectable then s1.flashUe r.block (r.page % 256)
      else if 40 ≤ r.bits ∨ r.retry then s1.refreshBlock r.block else s1
    if !r.last then .next s2.levelWear
    else .next ({ s2.levelWear with flash := { s2.levelWear.flash with dredgeLast := BitVec.ofNat 64 s.time.now } }.endAct actDredge)

/-! ## The flash's own events -/

/-- LEDGER_WRITE_DUE (R625): changes have been pending for 60 s. -/
def execLedgerWriteDue (s : State) : Outcome :=
  match s.flash.pendingSince with
  | none => .next s
  | some t =>
    if s.time.up < t + 60 * secondNs ∨ !s.rst.ready then .next s
    else
      let s1 := s.writeLedger
      .next (if (s1.act actLedger).phase = .idle then s1 else s1.endAct actLedger)

/-- NAND_TEMP_READ (R609, R620): both dies, once a second; above 95 °C `FLASH_HOT` once per hour. -/
def execNandTempRead (t0 t1 : Int) (s : State) : Outcome :=
  let t := max t0 t1
  let s1 := { s with flash := { s.flash with nand0 := t0, nand1 := t1, maxTemp := max s.flash.maxTemp t } }
  let due : Bool := match s.flash.hotReported with | some u => decide (u + 3600 * secondNs ≤ s.time.up) | none => true
  if 95 < t ∧ due ∧ s.rst.ready then
    .next ({ s1 with flash := { s1.flash with hotReported := some s.time.up } }.faultEvent Cause.flashHot none none 0 {})
  else .next s1

/-- FLASH_WEAR_REPORT (R618): the reserve is at or below 512 blocks, reported every 24 h. -/
def execFlashWearReport (s : State) : Outcome :=
  let due : Bool := match s.flash.wearReported with | some u => decide (u + dayNs ≤ s.time.up) | none => true
  if s.flash.reserve ≤ 512 ∧ due ∧ s.rst.ready then
    .next ({ s with flash := { s.flash with wearReported := some s.time.up } }.faultEvent Cause.flashWear none none 0 {})
  else .next s

/-- FLASH_OP_FAIL (R617): a program or an erase of a logical block fails. -/
def execFlashOpFail (block : Nat) (erase : Bool) (s : State) : Outcome :=
  if 16384 ≤ block then .next s else .next (s.growBad block (if erase then 2 else 1))

end Sys2Proof.Machine
end

