-- ==== Sys2Proof/Machine/HostRows.lean ====
section
/-! DEFINITION. Meanings of the host's register accesses and of the device commands (14_streams_and_host.md, R552, R559). -/

namespace Sys2Proof.Machine

/-! ## Registers and rings -/

/-- A register write (R6, R14, R509): an aligned access of 4 or 8 bytes, the low word first. -/
def execRegisterWrite (fn : Fin 13) (bar offset size : Nat) (write : BarWrite) (s : State) : Outcome :=
  if !s.barOpen || !s.enumerated fn then .next s
  else if size = 4 ∧ offset % 4 = 0 then .next (s.write32 fn bar offset (lo32 write.value.toNat) write.entries)
  else if size = 8 ∧ offset % 8 = 0 then
    .next ((s.write32 fn bar offset (lo32 write.value.toNat) write.entries).write32 fn bar (offset + 4) (hi32 write.value.toNat)
      write.entries)
  else .next s

/-- A write of SQ_CFG or CQ_CFG (R510, R731): enabling a ring starts it afresh. -/
def execRingEnable (fn : Fin 13) (completion : Bool) (value : Word) (s : State) : Outcome :=
  if !s.barOpen || !s.enumerated fn then .next s
  else .next (s.writeBar0 fn (if completion then 0x28 else 0x10) value [])

/-- The submission doorbell (R511, R732). -/
def execSqTailWrite (fn : Fin 13) (value : Word) (entries : List SqEntry) (s : State) : Outcome :=
  if !s.barOpen || !s.enumerated fn then .next s else .next (s.sqDoorbell fn value entries)

/-- The completion doorbell (R512, R732). -/
def execCqHeadWrite (fn : Fin 13) (value : Word) (s : State) : Outcome :=
  if !s.barOpen || !s.enumerated fn then .next s else .next (s.cqDoorbell fn value)

/-- Waiting replies and events are written into the completion ring while it has room (R512). -/
def execCompletionWrite (fn : Fin 13) (s : State) : Outcome := .next (s.serveRings fn)

/-- The intake doorbell of a slot (R519, R740). -/
def execIntakeDbWrite (fn : Fin 13) (slot : Fin 1024) (value : Word) (s : State) : Outcome :=
  if !s.barOpen || !s.enumerated fn then .next s else .next (s.intakeDoorbell fn slot value)

/-- The result doorbell of a slot (R526, R740). -/
def execResultDbWrite (fn : Fin 13) (slot : Fin 1024) (value : Word) (s : State) : Outcome :=
  if !s.barOpen || !s.enumerated fn then .next s else .next (s.resultDoorbell fn slot value)

/-- PF0's BAR4 reads or writes the GiB of device address that BAR4_WIN selects, past tags and weirs, until the window is closed
(R508, R637). -/
def execBar4Access (offset : Fin 1073741824) (write : Option (List Byte)) (len : Nat) (s : State) : Outcome :=
  if s.crs ∨ bitAt s.flash.sealFuses 3 then .next (s.emit (.unsupported 0))
  else
    let a := (s.fn 0).baseGib.toNat * 2 ^ 30 + offset
    let n := min len (2 ^ 30 - offset)
    match write with
    | some bs => if s.barOpen then .next (s.devWrite a (bs.take n)) else .next s
    | none => .next (s.emit (.readBytes (if s.barOpen then (List.range n).map (fun i => s.devByte (a + i)) else List.replicate n 0)))

/-- A configuration request: CRS before READY, otherwise the access (R654, R660, R733). -/
def execConfigRequest (fn : Fin 13) (write : Bool) (offset : Nat) (value : Word) (s : State) : Outcome :=
  if s.crs then .next (s.emit (.crs fn))
  else if !s.enumerated fn ∨ 4096 ≤ offset then .next (s.emit (.unsupported fn))
  else if write then .next (s.writeConfig fn (offset / 4) value)
  else .next (s.emit (.readData fn (BitVec.ofNat 64 (s.configWord fn (offset / 4)).toNat)))

/-- A read of TIME_NOW_LO captures the high word for TIME_NOW_HI (R509). -/
def execTimeNowRead (fn : Fin 13) (high : Bool) (s : State) : Outcome :=
  if high then .next (s.answerRead fn (BitVec.ofNat 64 (s.fn fn).timeHi.toNat))
  else
    let s1 := s.answerRead fn (BitVec.ofNat 64 (s.time.now % 2 ^ 32))
    if s.barOpen && s.enumerated fn then .next (s1.modFn fn (fun f => { f with timeHi := hi32 s.time.now })) else .next s1

/-! ## Device commands -/

/-- DEV_QUERY's result words. -/
def State.deviceWords (s : State) : List Word :=
  [pack [(b2n (bitAt s.flash.sealFuses 0), 31), (b2n (s.rst.stop == 1), 30), (s.rst.phase % 8, 24), (b2n s.time.chipValid, 23),
      (s.time.chip % 2048, 0)], s.flash.version, pack [(s.flash.fwImage % 2, 16), (s.flash.svn % 65536, 0)], s.flash.seq] ++
    s.coreMap

/-- DEV_QUERY (R552); in maintenance-only mode the status is FLASH_ERROR with the words filled (R549). -/
def execDevQuery (via : Via) (s : State) : Outcome :=
  .next (s.command via 0x0101 (fun _ => true) (fun s c =>
    if s.rst.stop = 1 then .yes (s.reply c St.flashError 2 s.deviceWords) else .yes (s.done c s.deviceWords)))

/-- DEV_SET_TIME (R402, R552). -/
def execDevSetTime (via : Via) (s : State) : Outcome :=
  .next (s.command via 0x0102 (fun _ => true) (fun s c =>
    let keep := bitAt (c.p 2) 2
    let master := bitAt (c.p 2) 1
    let live := (List.range 96).find? (fun j => (s.job j).state == .running || (s.job j).state == .parked)
    Verdict.need (firstBad [c.stray [0xFFFFFFFF, 0xFFFFFFFF, 7]]) <|
    Verdict.unless (master || s.time.master) St.wrongState 0 <|
    Verdict.unless (keep || live.isNone) St.wrongState ((live.map (fun j => (s.job j).state.code)).getD 0) <|
    let now := if keep then s.time.now else c.addr 0
    let t : TimeSt := { s.time with now := now, master := true, locked := true, ppsEn := bitAt (c.p 2) 0, jumped := true,
                                    suspect := false, parent := 0x3F, offset := 0 }
    .yes ({ s with time := t }.done c [lo32 now, hi32 now])))

/-- DEV_RESET's field checks. -/
def Cmd.resetBad (c : Cmd) : Option (Nat × Nat) :=
  firstBad [c.stray [0xC000011F], req (c.action < 2 && c.f 0 0 5 < 24) 8]

/-- DEV_RESET kind 0 (R552, R558): the warm reset follows once the reply is visible. -/
def execDevResetWarm (via : Via) (s : State) : Outcome :=
  .next (s.command via 0x0103 (fun c => c.action != 1) (fun s c =>
    Verdict.need c.resetBad <|
    Verdict.unless (s.pair.state == .unbound || s.pair.state == .yielded || bitAt (c.p 0) 8) St.wrongState s.pair.state.code <|
    let s1 := s.done c []
    .yes { s1 with rst := { s1.rst with afterReply := some (c.origin.code, c.seq, .devReset) } }))

/-- DEV_RESET kind 1 (R664, R665). -/
def execDevResetCore (via : Via) (s : State) : Outcome :=
  .next (s.command via 0x0103 (fun c => c.action == 1) (fun s c =>
    let k := c.f 0 0 5
    Verdict.need c.resetBad <|
    match (s.live (partOfCore k)).head? with
    | some j => .no St.wrongState (s.job j).state.code
    | none => .yes ((s.coreReset k).done c [])))

/-- DEV_SEAL_STATUS's field checks: CONFIRM belongs to ACTION 1. -/
def Cmd.sealBad (c : Cmd) : Option (Nat × Nat) :=
  firstBad [c.stray [0xC0000000, 0xFFFFFFFF], req (c.action < 2) 8, req (c.p 1 == (if c.action = 1 then 0x5EA10C3D else 0)) 9]

/-- DEV_SEAL_STATUS action 0 (R552). -/
def execDevSealRead (via : Via) (s : State) : Outcome :=
  .next (s.command via 0x0104 (fun c => c.action != 1) (fun s c =>
    Verdict.need c.sealBad (.yes (s.done c [BitVec.ofNat 32 s.flash.sealFuses]))))

/-- DEV_SEAL_STATUS action 1 (R637, R638): `blown` are the fuses that read back blown. The TAP is held in reset once its fuse is. -/
def execDevSealBlow (via : Via) (blown : Fin 16) (s : State) : Outcome :=
  .next (s.command via 0x0104 (fun c => c.action == 1) (fun s c =>
    Verdict.need c.sealBad <|
    let fuses := s.flash.sealFuses ||| blown.val
    let s1 := { s with flash := { s.flash with sealFuses := fuses }, jtag := if bitAt fuses 1 then {} else s.jtag }
    if fuses = 15 then .yes (s1.done c [15]) else .yes (s1.reply c St.flashError 9 [])))

/-! ## Time limits -/

/-- A command whose stated time has passed replies TIMEOUT and has no effect (R546, R559). -/
def execCommandTimeout (mailbox : Fin 15) (seq : Word) (s : State) : Outcome :=
  let due (c : Cmd) : Bool := c.isOf mailbox seq && s.late c
  match (s.waits.map (·.cmd) ++ s.accepted).find? due with
  | none => .next s
  | some c =>
    let s1 := { s with waits := s.waits.filter (fun w => w.cmd != c), accepted := s.accepted.filter (fun d => d != c) }
    .next ((s1.dropData c).reply c St.timeout 0 [])

end Sys2Proof.Machine
end

