-- ==== Sys2Proof/Machine/Jobs.lean ====
section
/-! DEFINITION. Meanings of the partition and job commands and of their events (09_queues_jobs_partitions.md, R553, R554). -/

namespace Sys2Proof.Machine

/-- Sites of a partition's cores without a passing spare in their row (R650). -/
def State.noSpare (s : State) (p : Nat) : Bool :=
  (coresOf p).any (fun c =>
    let row := coreRow c
    let spare := bits (s.coreMap.getD row 0).toNat 18 3
    (s.healthOf c).state == 2 && s.flash.ledger.failedSites.contains (7 * row + spare))

/-- Slots of a class in a PART_CONFIGURE's wheel. -/
def Cmd.slots (c : Cmd) (cls : Nat) : Nat := wheelSlots (BitVec.ofNat 32 (c.p 2)) (BitVec.ofNat 32 (c.p 3)) cls

/-- PART_CONFIGURE's field checks (R50, R553, R554). -/
def Cmd.configureBad (c : Cmd) : Option (Nat × Nat) :=
  firstBad [c.stray [0x403F00FF, 0x3FFF, 0x3FFFFFFF, 0x3FFFF],
    req (1 ≤ c.f 0 16 6 && c.f 0 0 8 ≤ 80) 8,
    req (1 ≤ c.f 1 0 14 && c.f 1 0 14 ≤ 10000) 9,
    req ((List.range 10).all (fun i => decide (c.f 2 (3 * i) 3 ≤ 5))) 10,
    req ((List.range 6).all (fun i => decide (c.f 3 (3 * i) 3 ≤ 5))) 11,
    req ((List.range 6).all (fun k => decide ((if k = 3 ∨ k = 5 then 2 else 1) ≤ c.slots k))) 10]

/-- PART_CONFIGURE (R348). -/
def execPartConfigure (via : Via) (s : State) : Outcome :=
  .next (s.command via 0x0201 (fun _ => true) (fun s c =>
    let p := c.partition
    Verdict.need c.configureBad <|
    match (s.resident p).head? with
    | some j => .no St.wrongState (s.job j).state.code
    | none =>
      Verdict.unless (!s.noSpare p) St.denied 6 <|
      Verdict.unless ((List.range 4).all (fun k => (s.stack k).trained)) St.noMemory 0 <|
      let sum := ((List.range 12).map (fun n => if n ≠ p ∧ (s.part n).configured then (s.part n).hbmGib else 0)).sum
      match if sum + c.f 0 0 8 ≤ 80 then s.hbmBase p (c.f 0 0 8) else none with
      | none => .no St.noMemory 0
      | some b => .yes ((s.configure p c.payload b).done c [BitVec.ofNat 32 (if c.f 0 0 8 = 0 then 0 else b)])))

/-- PART_SET_WEIR (R346, R347, R554): at once without a RUNNING job, else at the partition's next commit. -/
def execPartSetWeir (via : Via) (s : State) : Outcome :=
  .next (s.command via 0x0202 (fun _ => true) (fun s c =>
    let p := c.partition
    let weir := c.f 0 24 2
    let link := c.f 0 16 6
    let rate := c.f 0 0 9
    let burst := c.f 1 0 7
    let q := (s.plannedPart p).setWeir weir link rate burst s.time.up
    Verdict.need (firstBad [c.stray [0x033F01FF, 0x7F], req (rate ≤ 256) 8,
      req (if weir = 3 then link < 32 || link == 0x3F else link == 0) 8, req (1 ≤ burst && burst ≤ 64) 9]) <|
    Verdict.unless (s.weirSums p q weir link) St.badParam 8 <|
    Verdict.unless ((s.live p).all (fun j => q.meets (s.job j).image)) St.denied 4 <|
    if (s.jobsIn p .running).isEmpty then .yes ((s.applyWeir p weir link rate burst).done c [])
    else .yes (s.later c (.commit (some p) none none (.weir p weir link rate burst)))))

/-- The image that a JOB_LOAD names, with its model's package. -/
def State.imageOf (s : State) (c : Cmd) : Option (ModelPkg × Image × Placement) :=
  match s.flash.models.find? (fun m => m.pkg.id == c.f 0 16 16) with
  | none => none
  | some m =>
    match m.pkg.images.find? (fun i => i.index == c.f 0 8 8) with
    | none => none
    | some i => (i.placements.find? (fun q => q.id == c.f 0 0 8)).map (fun q => (m.pkg, i, q))

/-- Assign a job (R26, R318, R365, R374, R666): the lowest free ID, its weight ranges, its model's code tables, its two schedules in HBM.
The placement that it names is from now on that of every LOADED job of the partition (R319). -/
def State.loadJob (s : State) (c : Cmd) (j : Nat) (m : ModelPkg) (i : Image) (q : Placement) : State :=
  let p := c.partition
  let sf := s.endFreeing j
  let s0 := if (coresOf p).any (fun k => (sf.core k).cc.trapped) then sf.each (coresOf p) State.coreReset else sf
  let first := ((s0.loaded.find? (fun l => l.part == p && l.model == m.id)).map (·.first)).getD 0
  let rs : List WeightRange := m.weights.map (fun w => { job := j, part := p, first := first + w.1, count := w.2 })
  let s1 := s0.setJob j { state := .loaded, bulk := i.bulk, model := m.id, image := i, placement := q,
                          guardOn := bitAt (c.p 1) 0, reducedTest := bitAt (c.p 1) 1, cal := (c.payload.drop 2).take 4 }
  let s2 := s1.each (jobsOf p) (fun s k =>
    if (s.job k).state = .loaded then (s.modJob k (fun b => { b with placement := q })).storeSchedules k else s)
  { s2 with ranges := s2.ranges ++ rs, sluice := Table.put [] s2.sluice p m.tables,
            steering := s2.steering.filter (fun e => e.1 / 128 != j), tele := Table.put {} s2.tele j {} }

/-- JOB_LOAD (R319 and the rules that it checks). -/
def execJobLoad (via : Via) (s : State) : Outcome :=
  .next (s.command via 0x0203 (fun _ => true) (fun s c =>
    let p := c.partition
    let others := s.resident p
    Verdict.unless (s.flash.models.any (fun m => m.pkg.id == c.f 0 16 16)) St.notReady 4 <|
    Verdict.need (firstBad [c.stray [0xFFFFFFFF, 0x3]]) <|
    match s.imageOf c with
    | none => .no St.badParam 8
    | some (m, i, q) =>
      let names := (others.map (fun j => ((s.job j).model, (s.job j).image.index))) ++ [(m.id, i.index)]
      Verdict.unless ((s.part p).configured) St.wrongState 0 <|
      match (jobsOf p).find? (fun j => (s.job j).state == .free) with
      | none => .no St.noSlot 0
      | some j =>
        Verdict.unless (s.loaded.any (fun l => l.part == p && l.model == m.id)) St.badParam 8 <|
        Verdict.unless (samePairs q.resident names) St.badParam 8 <|
        if !i.contextLegal then
          if c.checkOnly then .no St.badParam 8
          else .yes ((s.faultEvent Cause.ctxMap (some p) none i.index {}).reply c St.badParam 8 [])
        else
        Verdict.unless (!bitAt (c.p 1) 0 || i.guardBuild) St.badParam 9 <|
        Verdict.need ((c.calBad i).map (fun w => (St.badParam, w))) <|
        Verdict.unless (c.bashabaOk i && i.sizesLegal && i.hashLegal && i.kv.all (·.legal) &&
          m.tables.all (fun t => tableAbsent t || tableValid t)) St.badParam 8 <|
        Verdict.unless (!(s.part p).preemptEn || i.bulk || i.preemptAllowance) St.badParam 8 <|
        Verdict.unless (others.isEmpty || Table.look [] s.sluice p == m.tables) St.wrongState
          ((others.head?.map (fun j => (s.job j).state.code)).getD 0) <|
        Verdict.unless (decide (s.integ.devRate ≤ i.rateMax)) St.denied 4 <|
        Verdict.unless ((coresOf p).all (fun k => s.poundsFit k (i.coreSpec k) && s.locksFit k (i.coreSpec k) &&
          s.creditsFit k (i.coreSpec k)) && (s.part p).poolsFit i) St.noMemory 0 <|
        .yes ((s.loadJob c j m i q).done c [BitVec.ofNat 32 j, pack [(i.rowsPaired % 2048, 16), (i.rowsSolo % 2048, 0)],
          BitVec.ofNat 32 i.boundUs])))

/-- JOB_START (R338, R347, R402, R738). It waits for the HBM's exit from self-refresh (R680) and for its locks' quarantine
(R308). -/
def execJobStart (via : Via) (s : State) : Outcome :=
  .next (s.command via 0x0204 (fun _ => true) (fun s c =>
    let j := c.job
    let p := partOfJob j
    let b := s.job j
    Verdict.unless (!(b.image.spansChips && b.state != .free) || s.time.locked) St.notReady 2 <|
    match b.state with
    | .free => .no St.wrongState 0
    | .running => .no St.wrongState 2
    | .parked =>
      Verdict.unless ((s.jobsIn p .running).isEmpty) St.wrongState 3 <|
      Verdict.unless ((s.part p).weirsSet == 0xF) St.wrongState (s.part p).weirsSet.toNat <|
      Verdict.unless ((s.part p).meets b.image) St.badParam 3 <|
      if s.mgmt.selfRefresh then .yes (s.wakeHbm.later c (.exit 0)) else .yes ((s.resumeJob j).done c [])
    | .loaded =>
      Verdict.unless ((s.part p).weirsSet == 0xF) St.wrongState (s.part p).weirsSet.toNat <|
      Verdict.unless ((s.part p).meets b.image) St.badParam 3 <|
      Verdict.unless (s.veFits j) St.noMemory 0 <|
      if s.mgmt.selfRefresh then .yes (s.wakeHbm.later c (.exit 0))
      else if s.quarantined j then .yes (s.later c (.exit 1))
      else .yes ((s.startJob j).done c [])))

/-- JOB_KILL (R328): the reply follows the kill; a LOADED job is freed. -/
def execJobKill (via : Via) (s : State) : Outcome :=
  .next (s.command via 0x0205 (fun _ => true) (fun s c =>
    Verdict.unless ((s.job c.job).state != .free) St.wrongState 0 <|
    .yes ((s.killJob c.job none 0 {} false).done c [])))

/-- JOB_PREEMPT (R330): a switch begins, or the command is held until 250 µs after the earlier switch began. -/
def execJobPreempt (via : Via) (s : State) : Outcome :=
  .next (s.command via 0x0206 (fun _ => true) (fun s c =>
    Verdict.need (firstBad [c.stray [0x7F]]) <|
    Verdict.need (s.preemptRefusal c) <|
    if s.switchHeld (c.job / 8) (c.f 0 0 7) then .yes (s.later c (.hold (c.job / 8))) else .yes (s.beginSwitch c)))

/-- JOB_SET_PRIORITY (R342): at once for a LOADED job, else at the next commit of cohort 0. -/
def execJobSetPriority (via : Via) (s : State) : Outcome :=
  .next (s.command via 0x0207 (fun _ => true) (fun s c =>
    let j := c.job
    let bulk := bitAt (c.p 0) 0
    Verdict.need (firstBad [c.stray [1]]) <|
    match (s.job j).state with
    | .free => .no St.wrongState 0
    | .loaded => .yes ((s.modJob j (fun b => { b with bulk := bulk })).done c [])
    | _ => .yes ((s.modJob j (fun b => { b with classPend := some bulk })).later c
        (.commit (some (partOfJob j)) (some j) (some 0) (.cls bulk)))))

/-- JOB_COUNTS (R320). -/
def execJobCounts (via : Via) (s : State) : Outcome :=
  .next (s.command via 0x0208 (fun _ => true) (fun s c =>
    let q := s.part c.partition
    .yes (s.done c [q.started, q.completed, q.killed, q.preempted])))

/-- A job that ended normally gives back what a kill gives back; its locks need no quarantine. A switch that was to park it has nothing
left to park (R319, R332). -/
def State.finishJob (s : State) (j : Nat) : State :=
  let p := partOfJob j
  let s1 := s.each (coresOf p) (fun s c => s.modCore c (fun k =>
    { k with locks := k.locks.filter (fun e => !(e.2.valid && e.2.owner == j)) }))
  let s2 := (s1.each (s1.streamsOf j) State.loseStream).releaseJob j
  ((s2.modPart p (fun q => { q with completed := q.completed + 1 })).switchAfterKill j 0).answerWaits (fun w => w.onJob j)
    (fun _ => (St.wrongState, 0, []))

/-- A RUNNING job ends once its program has reached its end and every command has committed; a lock of COHORT 0x3F that is not
as found makes the end a kill (R305, R319, R547). -/
def execJobEnd (job : Fin 96) (s : State) : Outcome :=
  let p := partOfJob job
  let busy := (coresOf p).any (fun c => (s.core c).running.any (fun r => r.job == job.val) ||
    [0, 1, 2, 3].any (fun q => ((s.core c).queue q).any (fun e => e.job == job.val)))
  if (s.job job).state ≠ .running ∨ busy then .next s
  else
    let left := (coresOf p).findSome? (fun c => ((s.core c).locks.find? (fun e =>
      e.2.valid && e.2.owner == job.val && e.2.cohort == 0x3F && !e.2.asFound)).map (fun e => (c, e.1)))
    match left with
    | some (c, i) => .next (s.killJob job (some Cause.lockLeft) i { core := some c } false)
    | none => .next (s.finishJob job)

/-- The oldest held JOB_PREEMPT of a partition runs 250 µs after the earlier switch began; every condition is checked again
(R330). -/
def execSwitchHoldExpiry (part : Fin 12) (s : State) : Outcome :=
  match s.waits.find? (fun w => w.kind == .hold part) with
  | none => .next s
  | some w =>
    if s.switchHeld part (w.cmd.f 0 0 7) then .next s
    else
      let s1 := { s with waits := s.waits.erase w }
      match s1.preemptRefusal w.cmd with
      | some (st, d) => .next (s1.reply w.cmd st d [])
      | none => .next (s1.beginSwitch w.cmd)

/-- Steps 1 to 3 of R332: once no non-pre-emptible command of the victim runs, it is parked. A victim that a fault has killed
leaves nothing to park (R337). -/
def execSwitchPark (part : Fin 12) (s : State) : Outcome :=
  match (s.part part).switch with
  | none => .next s
  | some w =>
    if w.parkedAt.isSome then .next s
    else
      let mark (s : State) : State :=
        s.modPart part (fun q => { q with switch := some { w with parkedAt := some s.time.up } })
      match w.victim with
      | none => .next (mark s)
      | some v => if s.stepOneDone part v then .next (mark (s.parkJob v)) else .next s

/-- Steps 4 and 5 of R332: the incoming job runs, and JOB_PREEMPT is answered (R330). -/
def execSwitchComplete (part : Fin 12) (s : State) : Outcome :=
  match (s.part part).switch with
  | none => .next s
  | some w =>
    match w.parkedAt with
    | none => .next s
    | some _ =>
      let s1 := s.endStall part w
      let s2 := if (s1.job w.incoming).state = .loaded then s1.startJob w.incoming else s1.resumeJob w.incoming
      .next (s2.answerWaits (fun x => x.kind == .switch part) (fun _ => (St.ok, 0, [])))

/-- An arbiter grants one barge (R339 to R344). -/
def execBargeGrant (part : Fin 12) (weir : Fin 4) (link : Fin 32) (s : State) : Outcome :=
  .next (s.grantBarge part weir link)

end Sys2Proof.Machine
end

