-- ==== Sys2Proof/Machine/Maint.lean ====
section
/-! DEFINITION. Meanings of the maintenance arbiter's events (19_management_power_maintenance.md R687 to R697). -/

namespace Sys2Proof.Machine

/-! ## Release (R687) -/

/-- A time since an end, or since READY where that is later. -/
def State.dueAfter (s : State) (last interval : Nat) : Nat := max last s.rst.readyUp + interval

/-- Passes that a stand-down asks for (R590). -/
def State.standAsks (s : State) (c kind : Nat) : Bool :=
  match s.integ.afterStand with
  | some x => s.pair.state == .yielded && x.part == partOfCore c && !bitAt x.ended (2 * (c % 2) + kind)
  | none => false

/-- An activity falls due to run again: released now, with its due time. -/
def State.releaseAt (s : State) (id due : Nat) : State :=
  s.modAct id (fun a => if a.phase = .idle then { phase := .pending, release := s.time.up, due := some due } else a)

/-- When a sweep falls due (R376, R602): the interval, or 10 s while the chip is suspect. -/
def State.sweepNs (s : State) : Option Nat :=
  if s.integ.chipSuspect then some (10 * secondNs) else s.integ.digestMin.map (· * secondNs)

/-- A core that cannot be retired (R592): reported once, with a stand-down of a MIRRORED chip. -/
def State.cannotRetire (s : State) (c : Nat) : State :=
  if (s.healthOf c).told then s
  else ((s.modHealth c (fun h => { h with told := true })).faultEvent Cause.chipRetire (some (partOfCore c)) none 0 { core := some c }).standDown
    Cause.chipRetire (partOfCore c)

/-- MAINT_RELEASE. A reload, a retrain and a link's retrain are released by the events that ask for them, FW_UPDATE by the host. -/
def execMaintRelease (activity : Nat) (s : State) : Outcome :=
  let c := actTarget activity % 128
  let h := s.healthOf c
  if !s.rst.ready ∨ (s.act activity).phase ≠ .idle then .next s
  else match actKind activity with
    | 1 =>
      if 24 ≤ c then .next s
      else if activity = actScan c true then
        .next (s.releaseAt activity (if s.standAsks c 1 then s.time.up else s.dueAfter h.lastB weekNs))
      else if activity = actScan c false then
        .next (s.releaseAt activity (if s.standAsks c 0 then s.time.up
          else s.dueAfter h.lastA ((if h.state = 1 then 10 else h.intervalMin) * minuteNs)))
      else .next s
    | 2 => if activity = actBist c ∧ c < 24 then .next (s.releaseAt activity (s.dueAfter h.lastBist weekNs)) else .next s
    | 3 =>
      if activity ≠ actDredge then .next s
      else
        let s1 := { s with flash := { s.flash with dredgeStart := s.time.up, dredgeDue := 0, maxTemp := max s.flash.nand0 s.flash.nand1 } }
        .next (s1.releaseAt activity s.time.up).dredgeDueNow
    | 4 => match s.flash.pendingSince with
      | some t => if activity = actLedger then .next (s.releaseAt activity (t + 60 * secondNs)) else .next s
      | none => .next s
    | 6 => match s.sweepNs with
      | some n => if activity = actSweep ∧ s.loaded ≠ [] then .next (s.releaseAt activity (s.time.up + n)) else .next s
      | none => .next s
    | 7 => if activity = actRemirror ∧ s.pair.state = .unmirrored then .next (s.releaseAt activity (s.time.up + 2 * secondNs)) else .next s
    | 10 =>
      if activity ≠ actRemap c ∨ 24 ≤ c ∨ h.state ≠ 2 then .next s
      else if s.spareUsed c then .next (s.cannotRetire c)
      else .next (s.releaseAt activity s.time.up)
    | _ => .next s

/-! ## Grant (R689, R691, R694, R452) -/

/-- Another activity stands in the way of a firmware request. -/
def State.blocked (s : State) (id : Nat) : Bool :=
  s.mgmt.acts.any (fun e => e.1 != id && e.2.phase != .idle && e.2.phase != .pending && conflicts e.1 id)

/-- No job of the affected partitions runs or is parked, or the chip is YIELDED (R694). -/
def State.clearFor (s : State) (id : Nat) : Bool :=
  s.pair.state == .yielded || (s.affected id).all (fun p => (s.live p).isEmpty)

/-- The streams go to the twin for an activity that needs it, from the urgent level on. -/
def State.handOver (s : State) : State := s.giveAway (s.movable true 0)

/-- Other running activities are suspended for a spare remap (R691). -/
def State.suspendOthers (s : State) (id : Nat) : State :=
  { s with mgmt := { s.mgmt with acts := Table.mapV {} s.mgmt.acts (fun n a =>
      if n != id && a.phase == .running then { a with phase := .suspended } else a) } }

/-- The first step of an activity that may start. -/
def State.startAct (s : State) (id : Nat) : State :=
  let phase (p : MaintPhase) : State := s.modAct id (fun a => { a with phase := p })
  let c := actTarget id % 128
  match actKind id with
  | 1 => (phase .granted).beginPass c (if actGroupB id then 1 else 0)
  | 2 => (phase .granted).beginPass c 2
  | 6 => if id = actSweep then (phase .running).beginSweep (fun _ => true) else (phase .running).askReload
  | 8 => (phase .running).modStack (actTarget id) (fun k => { k with margin := 3 })
  | 9 => if (s.link (actTarget id)).state = .markedOut then s.modAct id (fun _ => {}) else (phase .running).trainLink (actTarget id)
  | 10 => (phase .running).suspendOthers id
  | _ => phase .granted

/-- MAINT_GRANT: a pending firmware activity whose conflicts have ended starts. A handover activity starts on a clear chip; else, from the
urgent level on, a MIRRORED chip gives its streams first. -/
def execMaintGrant (activity : Nat) (s : State) : Outcome :=
  let a := s.act activity
  if !s.rst.ready ∨ a.phase ≠ .pending ∨ (actKind activity ≠ 10 ∧ s.blocked activity) then .next s
  else if !actHandover activity ∨ (s.clearFor activity ∧ s.pair.state ≠ .solo) then .next (s.startAct activity)
  else if a.levelAt s.time.up = 0 then .next s
  else .next s.handOver

/-! ## Levels (R693, R697) -/

/-- MAINT_URGENT. -/
def execMaintUrgent (activity : Nat) (s : State) : Outcome :=
  let a := s.act activity
  if a.phase ≠ .idle ∧ a.level = 0 ∧ a.levelAt s.time.up = 1 then
    .next ((s.modAct activity (fun a => { a with level := 1, escalated := true })).escalate activity 1)
  else .next s

/-- MAINT_FORCED. -/
def execMaintForced (activity : Nat) (s : State) : Outcome :=
  let a := s.act activity
  if a.phase ≠ .idle ∧ a.level ≠ 2 ∧ a.levelAt s.time.up = 2 then
    let s1 := s.modAct activity (fun a => { a with level := 2, escalated := true, repeatAt := s.time.up })
    .next ({ s1 with mgmt := { s1.mgmt with forced := satAdd s1.mgmt.forced 1 } }.escalate activity 2)
  else .next s

/-- MAINT_FORCED_REPEAT: every 1 s. -/
def execMaintForcedRepeat (activity : Nat) (s : State) : Outcome :=
  let a := s.act activity
  if a.phase ≠ .idle ∧ a.level = 2 ∧ a.repeatAt + secondNs ≤ s.time.up then
    .next ((s.modAct activity (fun a => { a with repeatAt := s.time.up })).escalate activity 2)
  else .next s

/-! ## Completion -/

/-- The segments that a sweep found bad come again from the model store (R377, R602): the chip is suspect for an hour, and sweeps. -/
def State.reload (s : State) : State :=
  let s1 := s.each s.loaded (fun s l => match s.stored l.model with
    | some (_, m) => s.each (l.bad ++ l.last).eraseDups (fun s i => s.copyShard l.part l.first m.pkg (m.pkg.segmentBarges i))
    | none => s)
  let s2 := { s1 with integ := { s1.integ with chipSuspect := true, suspectSince := s.time.up } }
  (s2.endAct actReload).release_ actSweep (some 0)

/-- A stack has been trained in full (R379), and the streams come back. -/
def State.retrained (s : State) (k : Nat) : State :=
  let s1 := s.modStack k (fun v => { v with trained := true, trainSrc := true, margin := 0 })
  (({ s1 with integ := { s1.integ with fullLoad := 0 } }.ledgerChange (fun l =>
    { l with training := Table.put none l.training k (some (((s.stack k).temp : Int), false)) })).endAct (actRetrain k)).takeBack

/-- MAINT_DONE: an activity whose last step no other event ends. A spare remap ends in the warm restart (R591). -/
def execMaintDone (activity : Nat) (s : State) : Outcome :=
  let t := actTarget activity
  if (s.act activity).phase ≠ .running ∨ !s.clearFor activity then .next s
  else match actKind activity with
    | 6 => if activity = actReload ∧ s.reloadWritten then .next s.reload else .next s
    | 8 => if activity = actRetrain t ∧ t < 4 then .next (s.retrained t) else .next s
    | 10 => if activity = actRemap t ∧ t < 24 then .next ((s.retireSite t).warmReset .retire) else .next s
    | _ => .next s

end Sys2Proof.Machine
end

