-- ==== Sys2Proof/Machine/Queues.lean ====
section
/-! DEFINITION. Meanings of the engines' commands and of the queue, lock, NoC and matrix-engine events of a core. -/

namespace Sys2Proof.Machine

/-! ## Engine commands -/

/-- DM_COPY (R76). -/
def execDmCopy (core : Fin 24) (s : State) : Outcome :=
  .next (s.runHead core 3 0x01 (fun e k => dmCopy s k e.words))

/-- DM_FILL (R77). -/
def execDmFill (core : Fin 24) (s : State) : Outcome :=
  .next (s.runHead core 3 0x02 (fun e k => dmFill s k e.words))

/-- DM_SEND_CORE (R82). -/
def execDmSendCore (core : Fin 24) (s : State) : Outcome :=
  .next (s.runHead core 3 0x03 (fun e k => dmSendCore s core k e.stamp e.words))

/-- DM_FETCH_CORE (R77). -/
def execDmFetchCore (core : Fin 24) (s : State) : Outcome :=
  .next (s.runHead core 3 0x04 (fun e k => dmFetchCore s core k e.stamp e.words))

/-- DM_HBM_READ (R361). -/
def execDmHbmRead (core : Fin 24) (corrected : List Nat) (s : State) : Outcome :=
  .next (s.runHead core 3 0x08 (fun e k => dmHbmRead s core k e.stamp e.words corrected))

/-- DM_HBM_WRITE (R358). -/
def execDmHbmWrite (core : Fin 24) (s : State) : Outcome :=
  .next (s.runHead core 3 0x09 (fun e k => dmHbmWrite s core k e.stamp e.words))

/-- DM_LINK_SEND (R414). -/
def execDmLinkSend (core : Fin 24) (s : State) : Outcome :=
  .next (s.runHead core 3 0x0C (fun e k => dmLinkSend s core k e.stamp e.words))

/-- ME_LOADW (R91). -/
def execMeLoadw (core : Fin 24) (s : State) : Outcome :=
  .next (s.runEngine core 0 0x01 (fun k e => meLoadw k e.words s.time.up))

/-- ME_MATMUL (R104). -/
def execMeMatmul (core : Fin 24) (s : State) : Outcome :=
  .next (s.runEngine core 0 0x02 (fun k e => meMatmul k e.words s.time.up s.free (meFlagsAllowed 2)))

/-- ME_DRAIN (R113). -/
def execMeDrain (core : Fin 24) (s : State) : Outcome :=
  .next (s.runEngine core 0 0x03 (fun k e => meDrain k e.words s.time.up))

/-- ME_LOADRS (R110). -/
def execMeLoadrs (core : Fin 24) (s : State) : Outcome :=
  .next (s.runEngine core 0 0x04 (fun k e => meLoadrs k e.words s.time.up))

/-- ME_ZERO (R124). -/
def execMeZero (core : Fin 24) (s : State) : Outcome :=
  .next (s.runEngine core 0 0x05 (fun k e => meZero k e.words s.time.up))

/-- ME_PREWARM (R681). -/
def execMePrewarm (core : Fin 24) (s : State) : Outcome :=
  .next (s.runEngine core 0 0x06 (fun k e => mePrewarm k e.words s.time.up))

/-- ME_LOADKV (R248). -/
def execMeLoadkv (core : Fin 24) (s : State) : Outcome :=
  .next (s.runEngine core 0 0x07 (fun k e => meLoadkv k e.words s.time.up))

/-- ME_MATMUL_C (R569). -/
def execMeMatmulC (core : Fin 24) (s : State) : Outcome :=
  .next (s.runEngine core 0 0x08 (fun k e => meMatmulC k e.words s.time.up s.free))

/-- ME_CHECK (R569). -/
def execMeCheck (core : Fin 24) (s : State) : Outcome :=
  .next (s.runEngine core 0 0x09 (fun k e => meCheck k e.words s.time.up))

/-- VE_FLIGHT (R174). -/
def execVeFlight (core : Fin 24) (s : State) : Outcome :=
  .next (s.runEngine core 2 0x01 veFlight)

/-- VE_SETT (R202). -/
def execVeSett (core : Fin 24) (s : State) : Outcome :=
  .next (s.runEngine core 2 0x02 veSett)

/-- VE_LOADFT (R204). -/
def execVeLoadft (core : Fin 24) (s : State) : Outcome :=
  .next (s.runEngine core 2 0x03 veLoadft)

/-- GP_STEP (R226). -/
def execGpStep (core : Fin 24) (s : State) : Outcome :=
  .next (s.runEngine core 1 0x01 (fun k e => gpStep k e.words))

/-! ## Lock commands and commits -/

/-- WAITF at the head of a queue (R288). -/
def execWaitf (core : Fin 24) (queue : Fin 4) (s : State) : Outcome :=
  .next (s.lockHead core queue (· == 0xE0) (s.waitHead core queue))

/-- WAITD at the head of a queue (R288). -/
def execWaitd (core : Fin 24) (queue : Fin 4) (s : State) : Outcome :=
  .next (s.lockHead core queue (· == 0xE1) (s.waitHead core queue))

/-- LOCK_SIGNAL at the head of a queue (R300). -/
def execLockSignal (core : Fin 24) (queue : Fin 4) (s : State) : Outcome :=
  .next (s.lockHead core queue (· == 0xE2) (s.lockSignalHead core queue))

/-- LOCK_DEPTH at the head of a queue (R301). -/
def execLockDepth (core : Fin 24) (queue : Fin 4) (s : State) : Outcome :=
  .next (s.lockHead core queue (· == 0xE3) (s.lockDepthHead core queue))

/-- The oldest started command of a queue commits (R324). -/
def execCommandCommit (core : Fin 24) (commit : QueueCommit) (s : State) : Outcome :=
  .next ((s.spadCorrected core commit.corrected).commitQueue core commit.queue)

/-- A wait at the head whose condition has come to hold completes (R291). -/
def execWaitComplete (core : Fin 24) (queue : Fin 4) (s : State) : Outcome :=
  .next (s.lockHead core queue (fun o => o == 0xE0 || o == 0xE1) (s.waitHead core queue))

/-- A wait's deadline passes (R295). -/
def execWaitDeadline (core : Fin 24) (queue : Fin 4) (s : State) : Outcome :=
  .next (s.lockHead core queue (fun o => o == 0xE0 || o == 0xE1) (s.waitDeadline core queue))

/-! ## Stalls with deadlines (R200, R296) -/

/-- A VE commit has waited for the full summary FIFO beyond the partition's deadline (R200): its job is killed and the
record discarded. -/
def execVeSumOverflow (core : Fin 24) (s : State) : Outcome :=
  let k := s.core core
  match k.ve.sumSince, k.running.find? (fun r => r.queue == 2) with
  | some t, some r =>
    if 16 ≤ k.ve.fifo.length ∧ t + k.deadlineUs.toNat * 1000 ≤ s.time.up then
      .next (s.killJob r.job (some Cause.veSumOverflow) 0 { core := some core.val } false)
    else .next s
  | _, _ => .next s

/-- Since when a link send's next barge has waited for a credit of its link (R391). -/
def State.linkWait (s : State) (x : LinkSend) : Option Nat :=
  if (s.link x.link).spare x.link = 0 then some (max x.since (Table.look 0 (s.link x.link).dry (bargeVc x.link))) else none

/-- The data mover has waited for a credit beyond the partition's deadline (R296): the job that waits is killed. A wait for link credits is
such a wait (R391). -/
def execCreditTimeout (core : Fin 24) (s : State) : Outcome :=
  let k := s.core core
  let late (t : Nat) : Bool := decide (t + k.deadlineUs.toNat * 1000 ≤ s.time.up)
  let noc := match k.creditWait, k.creditWaiter with
    | some t, some j => if late t then some j else none
    | _, _ => none
  let link := (k.linkSends.find? (fun x => (s.linkWait x).any late)).map (·.job)
  match noc.orElse (fun _ => link) with
  | some j =>
    .next ((s.modCore core (fun c => { c with creditWait := if noc.isSome then none else c.creditWait })).killJob j
      (some Cause.creditTimeout) 0 { core := some core.val } false)
  | none => .next s

/-! ## The matrix engine's clock (R127, R680) -/

/-- The engine gates its clock once MQ has been empty for 2 µs. -/
def execMeClockGate (core : Fin 24) (s : State) : Outcome :=
  let k := s.core core
  if !k.me.gated ∧ !k.me.waking ∧ k.queue 0 = [] ∧ !(k.running.any (fun r => r.queue == 0)) ∧
      k.me.idleAt + 2000 ≤ s.time.up then
    .next (s.modCore core (fun c => { c with me := { c.me with gated := true } }))
  else .next s

/-- The wake of 300 ns ends. -/
def execMeWakeEnd (core : Fin 24) (s : State) : Outcome :=
  let k := s.core core
  if k.me.waking ∧ k.me.wakeAt ≤ s.time.up then
    .next (s.modCore core (fun c => { c with me := { c.me with waking := false } }))
  else .next s

/-! ## Remote accesses (R63, R82 to R84, R282) -/

/-- The oldest arriving barge: checked against its pound, written, its credit sent home (R63, R82). A failed check kills the sending
job and changes no byte; what a killed command sent is discarded (R325). While a switch owns the core's port it waits (R334). -/
def execRemoteAccessArrive (core : Fin 24) (s : State) : Outcome :=
  match (s.core core).arrivals with
  | [] => .next s
  | p :: rest =>
    let s1 := s.modCore core (fun k => { k with arrivals := rest })
    let home (s : State) : State := s.modCore p.src (fun k => { k with returns := k.returns ++ [(p.credit, p.job)] })
    let sp := (s.core core).spad
    if p.dead then .next (home s1)
    else if s.switchOwns core then .next s
    else if !(sp.pound p.plane.pound).allowsRemote true p.plane.endb then
      .next ((home s1).killJob p.job (some Cause.poundFault) 0 { core := some p.src } false)
    else
      match berthFull sp p.plane with
      | some f => .next ((home s1).killJob p.job (some f) 0 { core := some p.src } false)
      | none =>
        let at_ := planeAddrs (sp.pound p.plane.pound) p.plane
        let sp1 := { sp with bytes := sp.bytes.writes (p.bytes.filterMap (fun e => (at_[e.1]?).map (·, e.2))) }
        .next (home (s1.modCore core (fun k => { k with spad := sp1 })))

/-- One effect of a commit flit where it lands. -/
def Spad.landEff (sp : Spad) : Eff → Spad
  | .untag ps => sp.untag ps
  | .tags ts => sp.setTags ts
  | .occ os => sp.setOcc os
  | _ => sp

/-- A commit flit lands behind its data: its tags are written and its signal applies (R83). -/
def execRemoteCommitFlit (core : Fin 24) (s : State) : Outcome :=
  let k := s.core core
  match k.commits with
  | [] => .next s
  | f :: rest =>
    if k.arrivals.any (fun p => p.src == f.src && p.cmd == f.cmd && !p.dead) ∨ s.switchOwns core then .next s
    else
      let s1 := s.modCore core (fun k => { k with commits := rest, spad := f.effects.foldl Spad.landEff k.spad })
      .next (s1.remoteSignals core (f.effects.filterMap (fun e => match e with | .signal g => some g | _ => none)))

/-- The send that waits for a credit of entry `i` takes it, and its next barge goes to the NoC injection weir (R80, R82). -/
def State.sendAsks (s : State) (c i : Nat) : State :=
  match (s.core c).sends.find? (fun x => x.credit == i && !x.asked) with
  | none => s
  | some x =>
    if (Table.look {} (s.core c).spad.credits i).avail = 0 then s
    else
      (s.modCore c (fun k => { k with
        creditWait := none, spad := k.spad.takeCredit i,
        sends := k.sends.map (fun y => if y == x then { y with asked := true } else y) })).request c 2 x.job 0 x.cmd 0
          [(x.todo.headD []).length]

/-- The oldest credit on its way home joins its entry (R82), and a send that waits for it goes on. A killed job's entries are cleared
when its last credit is home, and then its pounds go (R84, R328). -/
def execCreditReturn (core : Fin 24) (s : State) : Outcome :=
  match (s.core core).returns with
  | [] => .next s
  | (i, job) :: rest =>
    let s1 := s.modCore core (fun k => { k with
      returns := rest,
      spad := { k.spad with credits := Table.upd {} k.spad.credits i (fun e =>
        if e.valid && e.job == job then { e with avail := min e.count (e.avail + 1) } else e) } })
    .next (if s.freeing.contains job then s1.freePounds job else s1.sendAsks core i)

/-- The lock signals from other cores that land next, those of one cycle, take effect together (R282, R285). -/
def execNocSignalArrive (core : Fin 24) (s : State) : Outcome :=
  match (s.core core).signals with
  | [] => .next s
  | g :: gs =>
    let at_ := gs.foldl (fun t e => min t e.1) g.1
    if s.time.up < at_ then .next s
    else
      let now := (g :: gs).filter (fun e => e.1 == at_)
      .next ((s.modCore core (fun k => { k with signals := k.signals.filter (fun e => e.1 != at_) })).remoteSignals core
        (now.map (·.2)))

/-- The lockkeeper clears a killed job's quarantine, no earlier than 100 µs after the kill (R308); a JOB_START that waits for it
is due again. -/
def execLockQuarantineClear (core : Fin 24) (lock : Fin 256) (s : State) : Outcome :=
  let l := (s.core core).lock lock
  if l.quar ∧ l.killedAt + 100000 ≤ s.time.up then
    .next ((s.modCore core (fun k => k.setLock lock { l with quar := false })).release 1)
  else .next s

end Sys2Proof.Machine
end

