-- ==== Sys2Proof/Machine/Streams.lean ====
section
/-! DEFINITION. Meanings of the stream commands and of the intake read (14_streams_and_host.md, R555). -/

namespace Sys2Proof.Machine

/-- The wait of a stream command for the next commit of its cohort (R23, R24). -/
def State.atCommit (s : State) (c : Cmd) (st : Stream) (ch : Change) : State :=
  s.later c (.commit (some (partOfJob st.adm.job)) (some st.adm.job) (some st.adm.cohort) ch)

/-- A command with one payload word, the handle, that changes a stream in a legal planned state. -/
def State.streamChange (s : State) (c : Cmd) (legal : List StreamState) (goal : StreamState) (ch : Nat → Change) : Verdict :=
  s.withStream c (fun i st =>
    Verdict.unless (legal.contains st.planned && st.adm.source != .link) St.wrongState st.planned.code <|
    .yes ((s.modStream i (fun v => { v with planned := goal })).atCommit c st (ch i)))

/-- STREAM_OPEN (R513, R516, R517, R727): the row becomes LIVE, and the reply goes out, at the next commit of the cohort. -/
def execStreamOpen (via : Via) (s : State) : Outcome :=
  .next (s.command via 0x0301 (fun _ => true) (fun s c =>
    let p := s.pair.state
    Verdict.need (s.openBad c) <|
    Verdict.unless (p != .yielded && p != .fenced && p != .syncing) St.wrongState p.code <|
    match s.forcedOn (partOfJob c.job) with
    | some id => .no St.busyMaint id
    | none =>
      match s.placeFor c, s.freeIndex with
      | some (k, row), some i =>
        let st := s.newStream c k row i
        .yes ((s.setStream i (some st)).atCommit c st (.openRow i))
      | _, _ => .no St.noSlot 0))

/-- STREAM_PAUSE (R528). -/
def execStreamPause (via : Via) (s : State) : Outcome :=
  .next (s.command via 0x0302 (fun _ => true) (fun s c => s.streamChange c [.live] .paused .pause))

/-- STREAM_RESUME (R231). -/
def execStreamResume (via : Via) (s : State) : Outcome :=
  .next (s.command via 0x0303 (fun _ => true) (fun s c => s.streamChange c [.paused] .live .resume))

/-- STREAM_CLOSE (R529). -/
def execStreamClose (via : Via) (s : State) : Outcome :=
  .next (s.command via 0x0304 (fun _ => true) (fun s c =>
    s.withStream c (fun _ st =>
      Verdict.need (firstBad [c.stray [0xFFFFFFFF, 0xFFFF], req (c.f 1 0 16 ≤ (s.job st.adm.job).image.shape.n) 9]) <|
      s.streamChange c [.live, .paused] .closing (fun i => .close i (c.f 1 0 16)))))

/-- STREAM_QUERY (R530). -/
def execStreamQuery (via : Via) (s : State) : Outcome :=
  .next (s.command via 0x0306 (fun _ => true) (fun s c => s.withStream c (fun _ st => .yes (s.done c (s.queryWords st)))))

/-- The intake entry of a slot's next chunk is read at its doorbell, or 20 µs before the boundary (R521, R522). The chunk that a
takeover interrupted is read as soon as the host has re-delivered it (R449). -/
def execIntakeRead (slot : Fin 1024) (entry : IntakeEntry) (s : State) : Outcome :=
  match s.stream slot with
  | none => .next s
  | some st =>
    let j := st.adm.job
    match st.nextChunk with
    | none => .next s
    | some q =>
      if q.inBerth ∨ st.state ≠ .live ∨ st.adm.source ≠ .host ∨ (s.job j).state ≠ .running ∨
          (s.time.now + 20000 < s.nextBoundary (s.job j) st.adm.cohort s.time.now ∧
            !((s.job j).cohort st.adm.cohort).owed.contains slot.val) then .next s
      else .next (s.readEntry slot st entry)

end Sys2Proof.Machine
end

