-- ==== Sys2Proof/Machine/Registers.lean ====
section
/-! DEFINITION. What the registers of BAR0 and BAR2 read as: the register tables of chapters 02 to 19 over the state.  No command reads
one but TIME_NOW_READ; the census latch copies the blocks that the tables name (R313). -/

namespace Sys2Proof.Machine

/-- A block of registers as (offset, word); what it does not list reads 0. -/
def regAt (rs : List (Nat × Word)) (o : Nat) : Word := ((rs.find? (fun e => e.1 == o)).map (·.2)).getD 0

/-- A 64-bit count as two registers. -/
def twoRegs (o : Nat) (v : DWord) : List (Nat × Word) := [(o, lo32 v.toNat), (o + 4, hi32 v.toNat)]

/-! ## The core register block (02, 03, 05, 06, 08, 09, 16) -/

/-- `POUND_BASE_n` and `POUND_BOUND_n`. -/
def Pound.words (p : Pound) : Word × Word :=
  (pack [(b2n p.valid, 31), (b2n p.guardOn, 28), (b2n p.remoteW, 27), (b2n p.remoteR, 26), (b2n p.readShare, 25), (p.owner % 128, 18),
    (p.hash % 4, 16), (p.base % 4096, 0)], pack [(p.bound % 8192, 0)])

/-- `DM_CREDIT_k`. -/
def Credit.word (c : Credit) : Word :=
  pack [(b2n c.valid, 31), (c.avail % 32, 20), (c.job % 128, 13), (c.destCore % 32, 8), (c.destPound % 8, 5), (c.count % 32, 0)]

/-- The bank with the fewest free spares, the lowest of them, and its free spares. -/
def Spad.worstBank (sp : Spad) : Nat × Nat :=
  (List.range 64).foldl (fun (b : Nat × Nat) n =>
    let f := Table.look 8 sp.spares n
    if f < b.2 then (n, f) else b) (0, Table.look 8 sp.spares 0)

/-- `SPAD_RAS`. -/
def Spad.ras (sp : Spad) : Word :=
  let w := sp.worstBank
  pack [(b2n (sp.maps.any (fun m => !m.active)), 26), (w.1 % 64, 20), (w.2 % 16, 16), (sp.ceCount.toNat, 0)]

/-- The newest started command of a queue that has not committed. -/
def CoreSt.runningOn (c : CoreSt) (q : Nat) : Option Running := (c.running.filter (fun r => r.queue == q)).getLast?

/-- RUN_VALID and RUN_JOB of an engine. -/
def CoreSt.runBits (c : CoreSt) (q : Nat) : List (Nat × Nat) :=
  match c.runningOn q with
  | some r => [(1, 7), (r.job % 128, 0)]
  | none => []

/-- `ME_STATUS`. -/
def CoreSt.meStatus (c : CoreSt) : Word :=
  let m := c.me
  let a := if m.active = 0 then m.set0 else m.set1
  let h := heldClaims c.running
  pack ([(b2n m.gated, 31), (b2n m.waking, 30), (m.active % 2, 29), (m.set1.state % 4, 27), (m.set0.state % 4, 25),
    (b2n a.bashaba, 24), (a.nOut % 32, 19), (h.2 % 16, 15), (h.1 % 16, 11)] ++ c.runBits 0)

/-- `VE_STATUS`. -/
def CoreSt.veStatus (c : CoreSt) : Word := pack ((c.ve.fifo.length % 32, 16) :: c.runBits 2)

/-- `GP_STATUS`. -/
def CoreSt.gpStatus (c : CoreSt) : Word :=
  pack (((heldClaims (c.running.filter (fun r => r.queue == 1))).1 % 16, 8) :: c.runBits 1)

/-- The core's cycles of a wait that goes on. -/
def waitingCycles (up : Nat) (since : Option Nat) : Nat := match since with | some t => cyclesBetween t up | none => 0

/-- The head of a queue is a WAITF or WAITD. -/
def QEntry.isWait (e : QEntry) : Bool := e.op == 0xE0 || e.op == 0xE1

/-- Queue-cycles of the waits that stand at the heads of the four queues. -/
def CoreSt.headWaits (c : CoreSt) (up : Nat) : Nat :=
  ((List.range 4).map (fun q => match (c.queue q).head? with
    | some e => if e.isWait then headCycles up e else 0
    | none => 0)).sum

/-- `LOCK_CFG`. -/
def Lock.cfg (l : Lock) : Word :=
  pack [(b2n l.valid, 31), (l.owner % 128, 24), (l.cohort % 64, 18), (b2n l.remote, 17), (b2n l.quar, 16), (l.rest % 128, 7),
    (l.depth0 % 128, 0)]

/-- `LOCK_STATE` of lock `i`. -/
def CoreSt.lockState (c : CoreSt) (i : Nat) : Word :=
  let waits (q : Nat) : Nat := match (c.queue q).head? with
    | some e => b2n (e.isWait && wLock e.words == i)
    | none => 0
  pack [(waits 0, 8), (waits 1, 9), (waits 2, 10), (waits 3, 11), ((c.lock i).depth % 128, 0)]

/-- The head of an engine queue waits on a bank claim (R131). -/
def CoreSt.claimWaits (c : CoreSt) (q : Nat) (e : QEntry) : Bool :=
  match q with
  | 0 => c.me.claimSince.isSome
  | 1 => e.op == 1 && claimConflict c.running (gpClaims e.words)
  | 2 => e.op == 1 &&
    (match OTable.at? c.ve.flights ((veRange c e.job).1 + bits (dw e.words 14) 20 6) with
     | some fb => claimConflict c.running (banksRead e.words (bytesToWords fb))
     | none => false)
  | _ => false

/-- `QUEUE_STATUS_q` of core `c`. -/
def State.queueStatus (s : State) (c q : Nat) : Word :=
  let k := s.core c
  let run := match k.runningOn q with | some r => r.nonpre | none => false
  match k.queue q with
  | [] => pack [(b2n (s.switchOwns c), 5), (b2n run, 4)]
  | e :: t =>
    pack [(1, 31), ((t.length + 1) % 128, 24), (e.job % 128, 16), (e.op % 256, 8), (b2n e.isWait, 7), (b2n (k.claimWaits q e), 6),
      (b2n (s.stalledBy c e.job), 5), (b2n run, 4)]

/-- `CORE_HEALTH` and the registers beside it. -/
def Health.regs (h : Health) : List (Nat × Word) :=
  [(0x1E0, pack [(h.state % 4, 30), (h.source % 64, 24), (h.passes.toNat, 0)]), (0x1E4, h.transient), (0x1E8, h.permanent),
   (0x1EC, h.scanPasses), (0x1F0, h.segFail)]

/-- The register block of core `c`. -/
def State.coreRegs (s : State) (c : Nat) : List (Nat × Word) :=
  let k := s.core c
  let l := k.lock k.lockSel.toNat
  let up := s.time.up
  (List.range 8).flatMap (fun n => [(8 * n, (k.spad.pound n).words.1), (8 * n + 4, (k.spad.pound n).words.2)]) ++
  [(0x40, k.spad.wheelLo), (0x44, k.spad.wheelHi), (0x48, k.spad.ras)] ++
  (List.range 16).map (fun n => (0x80 + 4 * n, (Table.look {} k.spad.credits n).word)) ++
  [(0x100, k.meStatus), (0x104, k.me.nonfinite), (0x108, k.me.sat), (0x10C, k.me.flush),
   (0x110, satAdd k.me.claimWait (waitingCycles up k.me.claimSince))] ++ twoRegs 0x118 k.me.busy ++
  [(0x140, k.veStatus), (0x144, k.ve.clip), (0x148, k.ve.nonfinite), (0x14C, k.ve.gatherOor),
   (0x150, satAdd k.ve.sumWait (waitingCycles up k.ve.sumSince))] ++ twoRegs 0x158 k.ve.busy ++
  [(0x180, k.gpStatus), (0x184, k.gp.nonfinite), (0x188, k.gp.sat)] ++ twoRegs 0x190 k.gp.rowsteps ++ twoRegs 0x198 k.gp.busy ++
  [(0x1A0, BitVec.ofNat 32 k.lockSel.toNat), (0x1A4, l.cfg), (0x1A8, k.lockState k.lockSel.toNat), (0x1AC, l.fill), (0x1B0, l.drain),
   (0x1B4, satAdd k.lockWait (k.headWaits up)), (0x1B8, k.lockStray), (0x1BC, BitVec.ofNat 32 k.deadlineUs.toNat)] ++
  (List.range 4).map (fun q => (0x1C0 + 4 * q, s.queueStatus c q)) ++ (s.healthOf c).regs

/-! ## Partitions (09, 10, 16) -/

/-- `WEIR_x` of a setting. -/
def Weir.word (w : Weir) : Word := pack [(w.rate % 512, 16), (w.burst % 128, 0)]

/-- The Elcor egress weir as WEIR_x shows it: the least rate and the least burst over L0 to L31. -/
def Part.leastEgress (p : Part) : Weir :=
  let ws := (List.range 32).map (fun n => Table.look {} p.weirs (3 + n))
  { rate := ws.foldl (fun a w => min a w.rate) 256, burst := ws.foldl (fun a w => min a w.burst) 64 }

/-- `JOB_STATE_j`. -/
def Job.status (b : Job) : Word := pack [(b.state.code, 29), (b2n b.bulk, 28), (b2n b.classPend.isSome, 27)]

/-- The partition's counters at offsets 0x20 to 0x40 and 0x54 to 0x5C of its block. -/
def State.partCounts (s : State) (p : Nat) : List (Nat × Word) :=
  let q := (s.part p).settleStall s.time.up
  let k := s.check p
  let stalled := match q.switch with | some w => 2 * waitingCycles s.time.up w.parkedAt | none => 0
  [(0x20, q.started), (0x24, q.completed), (0x28, q.killed), (0x2C, q.preempted)] ++
  (List.range 4).map (fun x => (0x30 + 4 * x, q.stall.getD x 0)) ++
  [(0x40, satAdd q.switchCycles stalled), (0x54, k.passed), (0x58, k.mismatch), (0x5C, k.late)]

/-- The block of partition `p`. -/
def State.partRegs (s : State) (p : Nat) : List (Nat × Word) :=
  let q := s.part p
  (List.range 3).map (fun x => (4 * x, (Table.look {} q.weirs x).word)) ++
  [(0x0C, q.leastEgress.word),
   (0x10, pack [(b2n q.configured, 31), (b2n q.preemptEn, 30), (q.ageMax % 64, 16), (q.hbmGib % 256, 4), (q.weirsSet.toNat, 0)]),
   (0x14, pack [(q.baseGib % 128, 0)]),
   (0x50, pack [(s.rateMax p % 8, 4), ((s.check p).rate % 8, 0)])] ++
  s.partCounts p ++ (List.range 8).map (fun i => (0x80 + 4 * i, (s.job (8 * p + i)).status))

/-! ## Stacks, links, wharves (10, 11, 13) -/

/-- The block of a stack. -/
def Stack.regs (k : Stack) : List (Nat × Word) :=
  [(0x000, pack [(b2n k.trained, 31), (b2n k.trainSrc, 30), (k.margin % 4, 28), (k.temp % 256, 8)]), (0x004, k.ce)] ++
  twoRegs 0x008 k.ueAddr ++ twoRegs 0x010 k.rdBytes ++ twoRegs 0x018 k.wrBytes ++ [(0x020, k.barges)] ++ twoRegs 0x028 k.saved ++
  (List.range 32).map (fun i => (0x100 + 4 * i, Table.look 0 k.pcCe i))

/-- The block of a link at time `up`: the flits of its idle slots count. -/
def LinkSt.regs (l : LinkSt) (up : Nat) : List (Nat × Word) :=
  let k := l.filled up
  [(0x00, k.status), (0x04, BitVec.ofNat 32 k.delay.toNat), (0x08, k.fecCorr), (0x0C, k.fecUncorr), (0x10, k.replay),
   (0x14, k.replayLate)] ++ twoRegs 0x18 k.txFlits ++ twoRegs 0x20 k.rxFlits ++
  [(0x28, k.creditWait), (0x2C, pack [(k.transit % 512, 0)])]

/-- The block of wharf `n`. -/
def State.wharfRegs (s : State) (n : Nat) : List (Nat × Word) :=
  let w := s.wharf n
  [(0x00, w.cfg), (0x04, w.clk), (0x08, w.frac), (0x0C, w.rxMask), (0x10, w.txMask),
   (0x14, pack [(w.state.code, 29), (b2n (s.recent w.sharedAt), 28), (b2n w.contend, 27), (twos 16 w.phase, 0)]),
   (0x18, w.slipDrop), (0x1C, w.slipRep), (0x20, w.rxOverrun), (0x24, w.txUnderrun), (0x28, w.refFailover)] ++ twoRegs 0x30 w.frames

/-- The reference block. -/
def State.refRegs (s : State) : List (Nat × Word) :=
  (List.range 2).flatMap (fun r =>
    let v := s.ref r
    [(8 * r, pack [(v.state % 4, 30), (v.nom % 4, 28), (twos 16 v.drift, 0)]), (8 * r + 4, v.events)])

/-! ## Device blocks (08, 11, 12, 16, 17, 18, 19) -/

/-- The time block, without the captured word of TIME_NOW_HI. -/
def TimeSt.regs (t : TimeSt) : List (Nat × Word) :=
  [(0x00, lo32 t.now), (0x08, t.status), (0x0C, t.disagree), (0x10, pack [(b2n t.ppsEn, 0)]), (0x14, t.chipWord)]

/-- The pair block. -/
def State.pairRegs (s : State) : List (Nat × Word) :=
  let p := s.pair
  [(0x00, s.pairStatus), (0x04, BitVec.ofNat 32 p.epoch.toNat), (0x08, s.quietWord), (0x0C, p.takeovers), (0x10, p.fences),
   (0x14, p.relayMiss), (0x18, p.mirrorLate), (0x1C, p.stale), (0x20, p.retractTx), (0x24, p.retractRx), (0x28, p.retractLate)] ++
  twoRegs 0x2C p.lastTakeover

/-- The integrity block. -/
def Integ.regs (i : Integ) : List (Nat × Word) :=
  [(0x00, pack [(b2n i.libValid, 31), (b2n i.chipSuspect, 30), (i.scanCore.getD 0x1F % 32, 24), (i.devRate % 8, 0)]),
   (0x04, i.patternVersion), (0x08, i.sigNext), (0x0C, i.sigOldest)]

/-- The flash block. -/
def State.flashRegs (s : State) : List (Nat × Word) :=
  let f := s.flash
  let pending := match f.ledger.fwPending with | some p => p + 1 | none => 0
  [(0x00, pack [(b2n f.bbtValid, 31), (f.bank % 2, 30), (b2n f.factory, 29), (f.fwImage % 2, 28), (pending % 4, 26),
     (f.bootTries % 4, 24), (twos 8 f.maxTemp, 16), ((if f.bbtValid then f.reserve else 0) % 8192, 0)]),
   (0x04, f.seq), (0x08, f.bad), (0x0C, f.refreshed)] ++ twoRegs 0x10 f.dredgeLast ++
  [(0x18, lo32 ((f.dredgeDue - s.time.up) / 60000000000)), (0x1C, f.ue)]

/-- The reset block. -/
def Reset.regs (r : Reset) : List (Nat × Word) :=
  [(0x00, pack [(r.kind % 4, 30), (r.cause % 64, 24), (b2n r.thermHold, 23), (r.stop % 8, 20), (r.attempts % 16, 16),
     (r.priorPhase % 8, 0)]), (0x04, r.warm), (0x08, r.core),
   (0x0C, pack [(min 0xFFFF r.phase2Ms, 16), (min 0xFFFF r.totalMs, 0)])] ++ twoRegs 0x10 r.readyTime

/-- The census status. -/
def Census.regs (c : Census) : List (Nat × Word) :=
  [(0x00, pack [(c.head.id % 65536, 16), (c.head.state.code, 0)]), (0x04, lo32 c.head.t), (0x08, hi32 c.head.t)]

/-- The thermal and power block. -/
def Mgmt.thermRegs (m : Mgmt) : List (Nat × Word) :=
  [(0x00, pack [(twos 8 m.tj, 24), (m.sensor % 64, 18), (b2n m.warn, 17), (b2n m.tripped, 16), (twos 8 m.peak, 0)]),
   (0x04, pack [(min 0xFFFF m.avgW, 16), (min 0xFFFF m.peakW, 0)]), (0x08, m.warnings)]

/-- One bit per kind (bit k − 1 for kind k) that some activity of the kind meets a test. -/
def Mgmt.kindBits (m : Mgmt) (test : Activity → Bool) : Nat :=
  ((List.range 10).map (fun k => b2n (m.acts.any (fun e => actKind e.1 == k + 1 && test e.2)) * 2 ^ k)).sum

/-- The maintenance block. -/
def State.maintRegs (s : State) : List (Nat × Word) :=
  let m := s.mgmt
  [(0x00, pack [(m.kindBits (fun a => a.phase != .idle && a.level == 2), 20), (m.kindBits (fun a => a.phase != .idle && a.level == 1), 10),
     (m.kindBits (fun a => a.phase == .running), 0)]),
   (0x04, pack [(((List.range 12).map (fun p => b2n (s.forcedOn p).isSome * 2 ^ p)).sum, 0)]), (0x08, m.busy), (0x0C, m.forced)]

/-! ## The function block and the stream slots (14) -/

/-- The block of function `n`; write-only registers read 0. -/
def State.fnRegs (s : State) (n : Nat) : List (Nat × Word) :=
  let f := s.fn n
  [(0x00, pack [(b2n s.rst.ready, 31), (b2n (bitAt s.flash.sealFuses 0), 30), (s.rst.phase % 8, 24), (s.time.chip % 2, 23), (n % 16, 0)]),
   (0x04, f.stray)] ++ twoRegs 0x08 f.sqBase ++ [(0x10, pack [(b2n f.sqEn, 31), (f.sqLog2.toNat, 0)]), (0x18, lo32 f.sqHead)] ++
  twoRegs 0x20 f.cqBase ++ [(0x28, pack [(b2n f.cqEn, 31), (f.cqLog2.toNat, 0)]), (0x30, lo32 s.time.now), (0x34, f.timeHi),
    (0x38, f.evtLost), (0x40, if n = 0 then BitVec.ofNat 32 f.baseGib.toNat else 0)]

/-- A word of a function's MSI-X pending bit array (R507): bit v of word i stands for vector 32i + v. -/
def State.pbaWord (s : State) (n i : Nat) : Word :=
  BitVec.ofNat 32 (((List.range 32).map (fun v => b2n (Table.look false s.msixPend (n * 64 + 32 * i + v)) * 2 ^ v)).sum)

/-- What BAR0 of function `n` reads at a word offset (R6, R14). -/
def State.bar0Word (s : State) (n o : Nat) : Word :=
  if 0xF000 ≤ o ∧ o < 0xF400 then
    let k := (o - 0xF000) / 4
    Table.look 0 s.msixRam (n * 256 + k) ^^^ (if k % 4 = 3 then 1 else 0)
  else if 0xF800 ≤ o ∧ o < 0xF808 then s.pbaWord n ((o - 0xF800) / 4)
  else if o < 0x80 then regAt (s.fnRegs n) o
  else if n ≠ 0 then (if 0x1000 ≤ o ∧ o < 0x1100 then regAt (s.partRegs (n - 1)) (o - 0x1000) else 0)
  else if o < 0x0100 then 0
  else if o < 0x0200 then (if o < 0x0110 then s.coreMap.getD ((o - 0x0100) / 4) 0 else 0)
  else if o < 0x0300 then regAt s.census.regs (o - 0x0200)
  else if o < 0x0400 then regAt s.rst.regs (o - 0x0300)
  else if o < 0x0500 then regAt s.mgmt.thermRegs (o - 0x0400)
  else if o < 0x0600 then regAt s.maintRegs (o - 0x0500)
  else if o < 0x1000 then 0
  else if o < 0x1C00 then regAt (s.partRegs ((o - 0x1000) / 0x100)) (o % 0x100)
  else if o < 0x2000 then 0
  else if o < 0x3000 then regAt (s.stack ((o - 0x2000) / 0x400)).regs (o % 0x400)
  else if o < 0x3900 then regAt ((s.link ((o - 0x3000) / 0x40)).regs s.time.up) (o % 0x40)
  else if o < 0x3A00 then 0
  else if o < 0x3B00 then (if o = 0x3A04 then (s.fn 0).timeHi else regAt s.time.regs (o - 0x3A00))
  else if o < 0x3C00 then regAt s.pairRegs (o - 0x3B00)
  else if o < 0x3E80 then regAt (s.wharfRegs ((o - 0x3C00) / 0x40)) (o % 0x40)
  else if o < 0x3F00 then regAt s.refRegs (o - 0x3E80)
  else if o < 0x3F80 then regAt s.integ.regs (o - 0x3F00)
  else if o < 0x4000 then regAt s.flashRegs (o - 0x3F80)
  else if o < 0x7000 then regAt (s.coreRegs ((o - 0x4000) / 0x200)) (o % 0x200)
  else 0

/-- What BAR2 of function `n` reads at a word offset (R740). -/
def State.bar2Word (s : State) (n o : Nat) : Word :=
  match s.slot n (o / 64) with
  | none => 0
  | some st =>
    if o % 64 = 0x10 then pack [(1, 31), (st.state.code, 29), (st.queued.length % 4, 27), (st.nextSeq % 65536, 0)] else 0

end Sys2Proof.Machine
end

