-- ==== Sys2Proof/Machine/Telemetry.lean ====
section
/-! DEFINITION. Meanings of TELEMETRY_READ (19_management_power_maintenance.md R677, R678) and of the census commands and events
(08_locks.md R309 to R317). -/

namespace Sys2Proof.Machine

/-- Answer with data for a host buffer: a DMA write before the reply; over the towpath with BUF = 0, data messages after it. -/
def State.doneInto (s : State) (c : Cmd) (addr : Nat) (bytes : List Byte) (res : List Word) : State :=
  match c.origin with
  | .ring _ => s.doneWith c addr bytes res
  | .tow _ => if addr = 0 ∨ bytes = [] then s.doneWith c addr bytes res else (s.emit (.dmaWrite 0 addr bytes)).done c res

/-- The partition that a function is held to. -/
def Cmd.ownPart (c : Cmd) : Option Nat :=
  match c.origin with
  | .ring 0 => none
  | .ring f => some (f - 1)
  | .tow _ => none

/-! ## Items (R677) -/

/-- A telemetry item. -/
inductive Item where
  | thermal | power | part (p : Nat) | job (j : Nat) | maint | steering (j t : Nat) | pool (j k : Nat)
  deriving DecidableEq, Repr

/-- The item of a number. -/
def itemOf (n : Nat) : Option Item :=
  if n = 0x0001 then some .thermal
  else if n = 0x0002 then some .power
  else if 0x0100 ≤ n ∧ n < 0x010C then some (.part (n - 0x0100))
  else if 0x0200 ≤ n ∧ n < 0x0260 then some (.job (n - 0x0200))
  else if n = 0x0300 then some .maint
  else if 0x4000 ≤ n ∧ n < 0x7000 then some (.steering ((n - 0x4000) / 128) (n % 128))
  else if 0x7000 ≤ n ∧ n < 0x7600 then some (.pool ((n - 0x7000) / 16) (n % 16))
  else none

/-- The partition that an item belongs to. -/
def Item.owner : Item → Option Nat
  | .part p => some p
  | .job j => some (partOfJob j)
  | .steering j _ => some (partOfJob j)
  | .pool j _ => some (partOfJob j)
  | _ => none

/-- A signed byte. -/
def tempByte (t : Int) : Byte := BitVec.ofInt 8 t

/-- Item 0x0001: 32 sensors, 4 stacks, 2 dies, Tj and its sensor. -/
def State.thermalItem (s : State) : List Byte :=
  (List.range 32).map (fun i => tempByte (s.mgmt.sensors.getD i 0)) ++
  (List.range 4).map (fun k => BitVec.ofNat 8 (s.stack k).temp) ++
  [tempByte s.flash.nand0, tempByte s.flash.nand1, tempByte s.mgmt.tj, BitVec.ofNat 8 s.mgmt.sensor]

/-- Item 0x0002: the rails' readings are free values, as no rule of the model gives them. -/
def State.powerItem (s : State) (draw : Nat) : List Byte :=
  (List.range 12).map (Config.freeOut draw) ++ leBytes 4 (min 0xFFFF s.mgmt.avgW) ++ leBytes 4 (min 0xFFFF s.mgmt.peakW) ++
  List.replicate 12 0

/-- Item 0x0100 + p. -/
def State.partItem (s : State) (p : Nat) : List Byte :=
  wordsToBytes ((s.partCounts p).map (·.2) ++
    (List.range 32).map (fun n => (Table.look {} (s.part p).weirs (3 + n)).word))

/-- Item 0x0200 + j. -/
def State.jobItem (s : State) (j : Nat) : List Byte :=
  let t := s.teleOf j
  wordsToBytes [t.misses, t.committed, t.reruns, 0]

/-- The phase of an activity as item 0x0300 gives it. -/
def MaintPhase.code : MaintPhase → Nat
  | .idle => 0 | .pending => 1 | .granted => 2 | .running => 3 | .suspended => 4

/-- The activity that stands for its kind: the highest level, then the furthest phase, then the lowest ID. -/
def Mgmt.kindAct (m : Mgmt) (k : Nat) : Activity :=
  (m.acts.filter (fun e => actKind e.1 == k)).foldl (fun (b : Activity) e =>
    if b.level * 8 + b.phase.code < e.2.level * 8 + e.2.phase.code then e.2 else b) {}

/-- Item 0x0300: for each kind, state, level, release and due time. -/
def State.maintItem (s : State) : List Byte :=
  (List.range 10).flatMap (fun k =>
    let a := s.mgmt.kindAct (k + 1)
    leBytes 4 a.phase.code ++ leBytes 4 a.level ++ leBytes 8 a.release ++ leBytes 8 (a.due.getD 0))

/-- Sixteen bytes of a commit copy. -/
def copyItem (ws : List Word) : List Byte := wordsToBytes ((ws ++ List.replicate 4 0).take 4)

/-- An item's bytes with its AS_OF (R678). -/
def State.itemBytes (s : State) : Item → List Byte × Nat
  | .thermal => (s.thermalItem, s.time.now)
  | .power => (s.powerItem s.free, s.time.now)
  | .part p => (s.partItem p, s.time.now)
  | .job j => (s.jobItem j, s.time.now)
  | .maint => (s.maintItem, s.time.now)
  | .steering j t => (copyItem (Table.look [] (s.teleOf j).steerCopy t), (s.teleOf j).copiedAt)
  | .pool j k => (copyItem (Table.look [] (s.teleOf j).poolCopy k), (s.teleOf j).copiedAt)

/-- TELEMETRY_READ. -/
def execTelemetryRead (via : Via) (s : State) : Outcome :=
  .next (s.command via 0x0901 (fun _ => true) (fun s c =>
    Verdict.need (firstBad [c.stray [0xFFFF]]) <|
    match itemOf (c.p 0) with
    | none => .no St.badParam 8
    | some i =>
      Verdict.unless (c.ownPart.isNone || c.ownPart == i.owner) St.denied 1 <|
      let r := s.itemBytes i
      let bs := r.1.take (c.p 3)
      let s1 := if i = .power then { s with free := s.free + 1 } else s
      .yes (s1.doneInto c (c.addr 1) bs [lo32 bs.length, lo32 r.2, hi32 r.2])))

/-! ## The census -/

/-- A forwarded arm goes out on every link but the one it came by, with the hops that remain (R312). -/
def State.spreadArm (s : State) (t id hops : Nat) (from_ : Option Nat) : State :=
  if hops = 0 then s
  else s.each ((List.range 36).filter (fun l => !optIs from_ l)) (fun s l => s.sendOn l [.censusArm t id (hops - 1)])

/-- A census is armed; a cancel goes back to the header as it was. -/
def Census.arm (c : Census) (t id : Nat) : Census :=
  { c with head := { state := CensusState.armed, id := id, t := t, refused := 0 }, prev := c.head }

/-- CENSUS_ARM (R309 to R312). -/
def execCensusArm (via : Via) (s : State) : Outcome :=
  .next (s.command via 0x0902 (fun c => c.addr 0 != 0) (fun s c =>
    let t := c.addr 0
    let h := c.f 2 0 4
    Verdict.need (firstBad [c.stray [0xFFFFFFFF, 0xFFFFFFFF, 0xFFFF000F]]) <|
    Verdict.unless (decide (s.time.now + 50000 + 2000 * h ≤ t) && decide (t ≤ s.time.now + 10000000000)) St.badParam (50 + 2 * h) <|
    Verdict.unless (s.census.head.state != CensusState.armed) St.wrongState CensusState.armed.code <|
    .yes (({ s with census := s.census.arm t (c.f 2 16 16) }.done c []).spreadArm t (c.f 2 16 16) h none)))

/-- CENSUS_ARM with T = 0 (R311); with no census armed it changes nothing. -/
def execCensusCancel (via : Via) (s : State) : Outcome :=
  .next (s.command via 0x0902 (fun c => c.addr 0 == 0) (fun s c =>
    Verdict.need (firstBad [c.stray [0xFFFFFFFF, 0xFFFFFFFF, 0xFFFF000F]]) <|
    let k := s.census
    .yes ({ s with census := if k.head.state = CensusState.armed then { k with head := k.prev } else k }.done c [])))

/-- A forwarded arm (R312). A chip passes on the arms that are no duplicates. -/
def execCensusForward (link : Fin 36) (t id radius : Nat) (s : State) : Outcome :=
  let k := s.census
  if (s.link link).state != .up ∨ !s.rst.ready then .next s
  else if k.head.id = id ∧ k.head.state ≠ .idle then .next s
  else if k.head.state = .armed then
    .next ({ s with census := { k with head := { k.head with refused := k.head.refused + 1 } } }.spreadArm t id radius (some link))
  else if s.time.now + 1000 ≤ t then .next ({ s with census := k.arm t id }.spreadArm t id radius (some link))
  else
    .next ({ s with census := { k with head := { state := .missed, id := id, t := t, refused := 0 } } }.spreadArm t id radius (some link))

/-- The words of the shadow image past its header, in rising order (08 "Shadow image" and the units' register tables). -/
def State.image (s : State) : List (Nat × Word) :=
  let at_ (base : Nat) (rs : List (Nat × Word)) : List (Nat × Word) := rs.map (fun e => (base + e.1, e.2))
  (List.range 24).flatMap (fun c =>
    at_ (0x1000 + c * 0x1000) (s.coreRegs c ++
      (List.range 256).flatMap (fun i => [(0x800 + 8 * i, ((s.core c).lock i).fill), (0x804 + 8 * i, ((s.core c).lock i).drain)]))) ++
  (List.range 12).flatMap (fun p =>
    let q := s.part p
    at_ (0x19000 + 16 * p) [(0, q.started), (4, q.completed), (8, q.killed), (12, q.preempted)]) ++
  (List.range 36).flatMap (fun n => at_ (0x1A000 + 256 * n) ((s.link n).regs s.time.up)) ++
  (List.range 4).flatMap (fun k => at_ (0x1D000 + 1024 * k) (s.stack k).regs) ++
  (List.range 10).flatMap (fun n => at_ (0x1E000 + 256 * n) (s.wharfRegs n)) ++
  at_ 0x1F100 s.pairRegs ++ at_ 0x1F200 s.refRegs ++ at_ 0x1F300 s.integ.regs ++ at_ 0x1F400 s.flashRegs ++
  at_ 0x1F500 s.rst.regs ++ at_ 0x1F600 s.mgmt.thermRegs ++ at_ 0x1F700 s.maintRegs

/-- The shadow after a latch, by word index; words that no table names read 0. -/
def State.shadow (s : State) : WMem :=
  { epoch := 0, cells := (s.image.filter (fun e => e.2 != 0)).map (fun e => (e.1 / 4, e.2)) }

/-- The counters latched by the census to which the image gives no place (R313): the weir stall, switch and check counters of every
partition's block, `TIME_DISAGREE`, every function's `FN_STRAY` and the pool records (07 "The pool record"). -/
def State.apart (s : State) : List ((Nat × Nat) × Word) :=
  (List.range 12).flatMap (fun p =>
    ((s.partCounts p).filter (fun e => 0x30 ≤ e.1)).map (fun e => ((0, 0x1000 + 0x100 * p + e.1), e.2))) ++
  [((0, 0x3A0C), s.time.disagree)] ++
  (List.range 13).map (fun f => ((f, 0x04), (s.fn f).stray)) ++
  (List.range 96).flatMap (fun j => ((List.range (s.job j).image.kv.length).zip (s.job j).image.kv).flatMap (fun k =>
    if k.2.derived then
      ((s.pool (poolKey j k.1)).words.zip (List.range 4)).map (fun e => ((0x7000 + 16 * j + k.1, 4 * e.2), e.1))
    else []))

/-- CENSUS_LATCH (R313, R315). -/
def execCensusLatch (s : State) : Outcome :=
  let k := s.census
  if k.head.state = .armed ∧ k.head.t ≤ s.time.now then
    .next { s with census := { k with head := { k.head with state := .latched }, latch := some s.time.now, shadow := s.shadow,
                                      apart := s.apart } }
  else .next s

/-- The image's header. REFUSED while no census has been armed, and LATCH_TIME before the first latch since a reset, are free values
(R317). -/
def Census.header (k : Census) : List Word :=
  let at_ := match k.latch with | some t => [lo32 t, hi32 t] | none => [k.shadow.read 4, k.shadow.read 5]
  [pack [(k.head.id % 65536, 16), (k.head.state.code, 0)], if k.head.state = .idle then k.shadow.read 1 else k.head.refused,
   lo32 k.head.t, hi32 k.head.t] ++ at_

/-- Word `i` of the image. -/
def Census.word (k : Census) (i : Nat) : Word := if i < 16 then k.header.getD i 0 else k.shadow.read i

/-- The bytes of the image that a function may read: a VF reads the sections of its two cores, and of the line with its counts its own. -/
def vfReads (p first last : Nat) : Bool :=
  (decide (0x1000 + 0x2000 * p ≤ first) && decide (last ≤ 0x3000 + 0x2000 * p)) ||
  (first == 0x19000 + 64 * (p / 4) && last == first + 64)

/-- CENSUS_READ (R316). -/
def execCensusRead (via : Via) (s : State) : Outcome :=
  .next (s.command via 0x0903 (fun _ => true) (fun s c =>
    let o := c.p 0
    let n := c.p 1
    Verdict.need (firstBad [req (o % 64 == 0 && o ≤ 131072) 8, req (n % 64 == 0 && o + n ≤ 131072) 9]) <|
    Verdict.unless (match c.ownPart with | some p => vfReads p o (o + n) | none => true) St.denied 1 <|
    let own (i : Nat) : Bool := match c.ownPart with
      | some p => decide (i < 0x6400) || (i - 0x6400) / 4 == p
      | none => true
    let ws := (List.range (n / 4)).map (fun i => if own (o / 4 + i) then s.census.word (o / 4 + i) else 0)
    .yes (s.doneInto c (c.addr 2) (wordsToBytes ws) [s.census.header.getD 0 0])))

end Sys2Proof.Machine
end

