-- ==== Sys2Proof/Machine/Towpath.lean ====
section
/-! DEFINITION. Meanings of the management transports (19_management_power_maintenance.md R671 to R676) and of the JTAG port
(20_package_and_electrical.md R719). -/

namespace Sys2Proof.Machine

/-- The management transports answer: the chip is READY or in maintenance-only mode, and no quiesce has begun (R653, R654, R660). -/
def State.towOpen (s : State) : Bool := (s.rst.ready || s.rst.stop == 1) && s.rst.quiesce.isNone && !s.rst.railFault

/-! ## I3C (R672) -/

/-- The static address of the I3C target. -/
def i3cStatic : BitVec 7 := 0x3A

/-- ENTDAA, or SETDASA with the static address, gives the target its dynamic address; a target that has one takes no other. -/
def execI3cAddressAssign (_setdasa : Bool) (address : BitVec 7) (s : State) : Outcome :=
  if !s.towOpen ∨ s.mgmt.i3c.isSome then .next s
  else .next { s with mgmt := { s.mgmt with i3c := some address.toNat } }

/-- ENEC enables in-band interrupts; the target raises one whenever it queues a towpath event. -/
def execI3cEnec (s : State) : Outcome :=
  if !s.towOpen ∨ s.mgmt.i3c.isNone then .next s
  else .next { s with mgmt := { s.mgmt with ibi := true } }

/-! ## MCTP control (R671; the messages follow DSP0236) -/

/-- Completion codes. -/
def ccOk : Byte := 0x00
def ccInvalidData : Byte := 0x02
def ccInvalidLength : Byte := 0x03
def ccUnsupportedCmd : Byte := 0x05
def ccNoVersion : Byte := 0x80

/-- The answer to a control request with its command code and data: the endpoint and the response's bytes from the completion code on. -/
def Endpoint.control (e : Endpoint) (uuid : List Byte) (cmd : Nat) (data : List Byte) : Endpoint × List Byte :=
  match cmd with
  | 1 =>
    match data with
    | [op, eid] =>
      if op.toNat % 4 ≤ 1 ∧ 8 ≤ eid.toNat ∧ eid.toNat ≤ 0xFE then ({ e with eid := some eid.toNat }, [ccOk, 0, eid, 0])
      else (e, [ccInvalidData])
    | _ => (e, [ccInvalidLength])
  | 2 => (e, [ccOk, BitVec.ofNat 8 (e.eid.getD 0), 0, 0])
  | 3 => (e, ccOk :: uuid)
  | 4 =>
    match data with
    | [0xFF] => (e, [ccOk, 1, 0xF1, 0xF3, 0xF0, 0x00])
    | [0x00] => (e, [ccOk, 1, 0xF1, 0xF3, 0xF0, 0x00])
    | [_] => (e, [ccNoVersion])
    | _ => (e, [ccInvalidLength])
  | 5 => (e, [ccOk, 1, 0x7E])
  | _ => (e, [ccUnsupportedCmd])

/-- An MCTP control message: type 0x00, the request byte, the command code and its data. A request is answered; the response clears
the request bit. A target without an I3C address receives none on that transport, a FENCED chip answers none (R441). -/
def execMctpControlMessage (ep : Fin 2) (msg : List Byte) (s : State) : Outcome :=
  if !s.towOpen ∨ s.pair.state = .fenced ∨ (ep.val = 0 ∧ s.mgmt.i3c.isNone) then .next s
  else
    match msg with
    | 0x00 :: rq :: cmd :: data =>
      if rq.toNat < 128 then .next s
      else
        let uuid := (List.range 16).map Config.uuid
        let r := (s.mgmt.ep ep).control uuid cmd.toNat data
        let s1 := { s with mgmt := s.mgmt.modEp ep (fun _ => r.1) }
        if bitAt rq.toNat 6 then .next s1
        else .next (s1.emit (.mctp ep ([0x00, BitVec.ofNat 8 (rq.toNat % 32), cmd] ++ r.2)))
    | _ => .next s

/-- A KIND 0x04 message: a slice of the data of a command in progress (R673, R674). -/
def execMctpDataToKnarum (ep : Fin 2) (seq : Word) (offset : Nat) (data : List Byte) (s : State) : Outcome :=
  if !s.towOpen ∨ s.pair.state = .fenced ∨ data = [] ∨ 1024 < data.length then .next s
  else .next { s with mgmt := s.mgmt.modEp ep (fun e => { e with
    dataIn := e.dataIn.map (fun d => if d.seq = seq then { d with got := d.got ++ [(offset, data.length)] } else d) }) }

/-! ## JTAG (R719; the TAP follows IEEE 1149.1) -/

/-- The TAP's next state. -/
def Tap.next (t : Tap) (tms : Bool) : Tap :=
  match t with
  | .reset => if tms then .reset else .idle
  | .idle => if tms then .drSelect else .idle
  | .drSelect => if tms then .irSelect else .drCapture
  | .drCapture => if tms then .drExit1 else .drShift
  | .drShift => if tms then .drExit1 else .drShift
  | .drExit1 => if tms then .drUpdate else .drPause
  | .drPause => if tms then .drExit2 else .drPause
  | .drExit2 => if tms then .drUpdate else .drShift
  | .drUpdate => if tms then .drSelect else .idle
  | .irSelect => if tms then .reset else .irCapture
  | .irCapture => if tms then .irExit1 else .irShift
  | .irShift => if tms then .irExit1 else .irShift
  | .irExit1 => if tms then .irUpdate else .irPause
  | .irPause => if tms then .irExit2 else .irPause
  | .irExit2 => if tms then .irUpdate else .irShift
  | .irUpdate => if tms then .drSelect else .idle

/-- The TAP is held in reset: its fuse is blown (R637), or POR_N is low. -/
def State.tapHeld (s : State) : Bool := bitAt s.flash.sealFuses 1 || s.rst.porLow

/-- A rising edge of TCK. In a shift state TDO shows the next bit of the register selected: the instruction register captures 01 in
its two low bits; every other bit is a free value, as the spec lists no instruction and no register. -/
def execJtagTckEdge (tms _tdi : Bool) (s : State) : Outcome :=
  if s.tapHeld then .next s
  else
    let t := s.jtag.tap.next tms
    let shifts := t == .irShift || t == .drShift
    let moved := if t = .irCapture ∨ t = .drCapture then 0 else if s.jtag.tap = .irShift ∨ s.jtag.tap = .drShift then s.jtag.moved + 1 else s.jtag.moved
    let bit := if t = .irShift ∧ moved < 2 then moved == 0 else Config.freeBool s.free
    let tdo := if shifts then some bit else none
    .next ({ s with jtag := { tap := t, moved := moved, tdo := tdo }, free := s.free + 1 }.emit (.tdo tdo))

/-- TRST_N low for 100 ns. -/
def execJtagTapReset (s : State) : Outcome := .next { s with jtag := {} }

end Sys2Proof.Machine
end

