-- ==== Sys2Proof/Machine/Wharves.lean ====
section
/-! DEFINITION. Meanings of the wharf commands and of the wharves' own events (13_wharves.md, R555, R556). -/

namespace Sys2Proof.Machine

/-- WHARF_CONFIG (R475). -/
def execWharfConfig (via : Via) (s : State) : Outcome :=
  .next (s.command via 0x0501 (fun _ => true) (fun s c =>
    let n := c.f 0 0 4
    Verdict.need (s.wharfBad c) <|
    Verdict.unless ((s.wharf n).state == .stopped) St.wrongState (s.wharf n).state.code <|
    .yes ((s.modWharf n (fun w => { w with
      cfg := storedCfg (BitVec.ofNat 32 (c.p 1)),
      clk := BitVec.ofNat 32 (c.p 2 + c.f 2 30 2 * 2 ^ 28), frac := BitVec.ofNat 32 (c.p 3),
      rxMask := BitVec.ofNat 32 (c.p 4), txMask := BitVec.ofNat 32 (c.p 5) })).done c [BitVec.ofNat 32 n])))

/-- The first named wharf whose state is not among the legal ones, as a state code. -/
def State.wrongWharf (s : State) (ns : List Nat) (ok : Nat → Bool) : Option (Nat × Nat) :=
  (ns.find? (fun n => !ok n)).map (fun n => (St.wrongState, (s.wharf n).state.code))

/-- WHARF_ARM (R486): a wharf configured as STANDBY waits for the shared clocks. -/
def execWharfArm (via : Via) (s : State) : Outcome :=
  .next (s.command via 0x0502 (fun _ => true) (fun s c =>
    let ns := maskWharves (c.f 0 0 10)
    let refs := (ns.map (fun n => (s.wharf n).refCur)).eraseDups
    Verdict.need (firstBad [c.stray [0x103FF], req (!ns.isEmpty) 8,
      req (ns.all (fun n => (s.wharf n).state != .stopped || bitAt (s.wharf n).cfg.toNat 31) &&
        (decide (refs.length ≤ 1) || ns.any (fun n => (s.wharf n).state != .stopped))) 8]) <|
    Verdict.need (s.wrongWharf ns (fun n => (s.wharf n).state == .stopped)) <|
    .yes ((s.each ns (fun s n => s.modWharf n (fun w => { w with
      state := if w.role = 2 then .standby else .armed, trigPin := bitAt (c.p 0) 16, startPending := false,
      contend := false, hiZ := true, frames := 0, lastClose := none }))).done c [])))

/-- WHARF_START (R487): the armed wharves start at the next rising edge of their reference. -/
def execWharfStart (via : Via) (s : State) : Outcome :=
  .next (s.command via 0x0503 (fun _ => true) (fun s c =>
    let ns := (List.range 10).filter (fun n => (s.wharf n).state == .armed)
    Verdict.unless (!ns.isEmpty) St.wrongState 0 <|
    .yes ((s.each ns (fun s n => s.modWharf n (fun w => { w with startPending := true }))).later c (.wharfStart ns))))

/-- WHARF_STOP (R486): legal with no stream bound; a wharf stops at its next frame opening. -/
def execWharfStop (via : Via) (s : State) : Outcome :=
  .next (s.command via 0x0504 (fun _ => true) (fun s c =>
    let ns := maskWharves (c.f 0 0 10)
    Verdict.need (firstBad [c.stray [0x3FF], req (!ns.isEmpty) 8]) <|
    Verdict.need (s.wrongWharf ns (fun n => (s.wharf n).state != .stopped && (s.bindings n 1024).isEmpty)) <|
    .yes ((s.each ns (fun s n => s.modWharf n (fun w =>
      if w.state = .armed then w.halt else { w with stopping := true }))).later c (.wharfStop ns)).answerStops))

/-- The nominals that a WHARF_REF_SELECT leaves. -/
def refNoms (s : State) (c : Cmd) : Nat × Nat :=
  if bitAt (c.p 0) 8 then (c.f 0 0 2, c.f 0 4 2) else ((s.ref 0).nom, (s.ref 1).nom)

/-- WHARF_REF_SELECT (R500): nominals at once, a wharf's source at its next frame opening. -/
def execWharfRefSelect (via : Via) (s : State) : Outcome :=
  .next (s.command via 0x0505 (fun _ => true) (fun s c =>
    let ns := maskWharves (c.f 1 0 10)
    let r := c.f 1 16 2
    let noms := refNoms s c
    let fa (ref syn : Nat) := 8 * nomHz (if ref = 2 then syn else if ref = 0 then noms.1 else noms.2)
    let usable := r == 2 || (r < 2 && ((s.ref r).state == 1 || (s.ref r).state == 2))
    let same (n : Nat) : Bool :=
      let w := s.wharf n
      w.state == .stopped || fa (if ns.contains n then r else w.refCur) w.synNom == s.fAref w.refCur w.synNom
    Verdict.need (firstBad [c.stray [0x133, 0x303FF], req (ns.isEmpty || usable) 9]) <|
    Verdict.need (s.wrongWharf (List.range 10) same) <|
    let s1 := (s.modRef 0 (fun v => { v with nom := noms.1 })).modRef 1 (fun v => { v with nom := noms.2 })
    let s2 := s1.each ns (fun s n => s.modWharf n (fun w =>
      let w1 := { w with clk := (w.clk &&& 0x3FFFFFFF) ||| BitVec.ofNat 32 (r * 2 ^ 30) }
      if w.state = .running ∨ w.state = .standby then { w1 with refNext := some (r, 0) }
      else w1.setSource r 0 w.synNom))
    .yes (s2.done c [])))

/-- STREAM_BIND_WHARF (R482 to R484): counts of 0 remove a binding. -/
def execStreamBindWharf (via : Via) (s : State) : Outcome :=
  .next (s.command via 0x0305 (fun _ => true) (fun s c =>
    s.withStream c (fun i st =>
      let n := c.f 1 24 4
      let b : Binding := { wharf := n, rxFirst := c.f 1 16 5, rxCount := c.f 1 0 6, txFirst := c.f 2 16 5, txCount := c.f 2 0 6 }
      let none_ := b.rxCount == 0 && b.txCount == 0
      let w := s.wharf n
      let sh := (s.job st.adm.job).image.shape
      let others := s.bindings n i
      let bytes := s.bindBytes st.adm.job b
      let rxOk := none_ || (b.rxFirst + b.rxCount ≤ maskChannels w.rxMask && bytes ≤ 131072 && w.rate * sh.periodMs % 1000 == 0 &&
        others.all (fun o => !meets b.rxFirst b.rxCount o.rxFirst o.rxCount) && (st.adm.source == .wharf || b.rxCount == 0))
      let txOk := none_ || (b.txFirst + b.txCount ≤ maskChannels w.txMask &&
        others.all (fun o => !meets b.txFirst b.txCount o.txFirst o.txCount))
      let k := st.adm.cohort
      let budget := ((s.job st.adm.job).image.cohorts.getD k default).wharfBudget
      Verdict.need (firstBad [c.stray [0xFFFFFFFF, 0x0F1F003F, 0x001F003F], req (n ≤ 9 && b.rxCount ≤ 32) 9, req (b.txCount ≤ 32) 10]) <|
      Verdict.unless (st.adm.source != .link) St.wrongState st.planned.code <|
      Verdict.unless (w.state != .stopped) St.wrongState w.state.code <|
      Verdict.need (firstBad [req rxOk 9, req txOk 10]) <|
      Verdict.unless (b.rxCount == 0 || s.wharfIntake st.adm.job k i + bytes ≤ budget) St.noSlot 0 <|
      .yes (s.later c (.commit (some (partOfJob st.adm.job)) (some st.adm.job) (some k) (.bind i (if none_ then none else some b)))))))

/-- A rising edge on WHARF_TRIG (R487). -/
def execWharfTrigEdge (s : State) : Outcome :=
  .next { s with wharves := Table.mapV {} s.wharves (fun _ w =>
    if w.state = .armed ∧ w.trigPin then { w with startPending := true } else w) }

/-- The rising edge of a reference that starts its armed wharves (R488); WHARF_START is answered with the edge's time. -/
def execWharfStartEdge (reference : Fin 3) (s : State) : Outcome :=
  let ns := (List.range 10).filter (fun n =>
    (s.wharf n).state == .armed && (s.wharf n).startPending && (s.wharf n).refCur == reference)
  let s1 := s.each ns (fun s n => s.startWharf n)
  .next (s1.answerWaits (fun w => match w.kind with
      | .wharfStart ms => ms.all (fun n => (s1.wharf n).state != .armed) && ms.any (fun n => ns.contains n)
      | _ => false)
    (fun _ => (St.ok, 0, [lo32 s.time.now, hi32 s.time.now])))

/-- A received frame is complete (R493). -/
def execFrameComplete (wharf : Fin 10) (samples : List (List Byte)) (overrun : Bool) (s : State) : Outcome :=
  let w := s.wharf wharf
  if w.state = .standby ∨ (w.state = .running ∧ w.openAt ≤ s.time.now) then .next (s.frameDone wharf samples overrun)
  else .next s

/-- A cohort's boundary comes with its wharf chunk incomplete (R493, R739). -/
def execWharfBoundary (wharf : Fin 10) (job : Fin 96) (cohort : Fin 32) (s : State) : Outcome :=
  .next (s.wharfAt wharf (bufKey job cohort))

/-- A wharf that a standing-down chip drives stops driving at its frame opening (R583). A shared wharf becomes the standby one. -/
def State.releaseWharf (s : State) (n : Nat) : State :=
  s.modWharf n (fun w => if w.role = 1 then { w.setRole 2 with hiZ := true, state := .standby } else { w with hiZ := true })

/-- A frame opens (R492, R494, R499, R583); on a STANDBY wharf this is the opening edge seen on the shared lines. -/
def execTxFrameOpening (wharf : Fin 10) (s : State) : Outcome :=
  let w := s.wharf wharf
  match w.state with
  | .stopped => .next s
  | .armed => .next s
  | .standby =>
    if w.stopping then .next (s.modWharf wharf (fun w => w.halt)).answerStops
    else .next ((s.switchSource wharf).modWharf wharf (fun w => { w with sharedAt := some s.time.up }))
  | .running =>
    if s.time.now < w.openAt then .next s
    else if w.stopping then .next (s.modWharf wharf (fun w => w.halt)).answerStops
    else if s.pair.standing.isSome ∧ !w.hiZ then .next (s.releaseWharf wharf).finishStandDown
    else .next ((s.switchSource wharf).playout wharf)

/-- A whole second of schedule time: slips beyond SLIP_LIMIT are reported (R496). -/
def execSlipLimitWindow (s : State) : Outcome :=
  if s.time.now / secondNs ≤ s.slipSec then .next s
  else
    let s1 := s.each (List.range 10) (fun s n =>
      let w := s.wharf n
      let s2 := if bits w.cfg.toNat 0 4 < w.winDrop + w.winRep then
          s.event Ev.slipLimit none none 0 n [BitVec.ofNat 32 w.winDrop, BitVec.ofNat 32 w.winRep]
        else s
      s2.modWharf n (fun w => { w with winDrop := 0, winRep := 0 }))
    .next { s1 with slipSec := s.time.now / secondNs }

/-- A 100 ms window of the reference pins (R497). -/
def execRefWindow (edges0 edges1 : Nat) (s : State) : Outcome :=
  if s.time.locked then .next ((s.refWindowOne 0 edges0).refWindowOne 1 edges1) else .next s

/-- A reference shows no edge for 10 µs (R498). -/
def execRefNoEdge (ref : Fin 2) (s : State) : Outcome :=
  if s.time.locked ∧ ((s.ref ref).state = 1 ∨ (s.ref ref).state = 2) then .next (s.refState ref 3) else .next s

/-- Eight bit clocks in a row read back wrong (R506). -/
def execBclkContend (wharf : Fin 10) (s : State) : Outcome :=
  let w := s.wharf wharf
  if w.drives ∧ w.role ≠ 2 then
    .next (((s.modWharf wharf (fun w => { w.halt with contend := true })).faultEvent Cause.wharfContend none none wharf
      {}).answerStops.finishStandDown)
  else .next s

/-- A STANDBY wharf becomes ACTIVE at its frame opening after a takeover (R504). -/
def execWharfOutputEnable (wharf : Fin 10) (s : State) : Outcome :=
  let w := s.wharf wharf
  if w.enabling ∧ w.state = .standby then
    .next (s.modWharf wharf (fun w => { w.setRole 1 with state := .running, hiZ := false, enabling := false }))
  else .next s

/-- A planned handover exchanges a shared wharf's roles (R505). -/
def execWharfRoleSwap (wharf : Fin 10) (s : State) : Outcome :=
  let w := s.wharf wharf
  match w.swapAt with
  | none => .next s
  | some h =>
    if s.time.now < h then .next s
    else .next (s.modWharf wharf (fun w =>
      if w.role = 1 then { w.setRole 2 with state := .standby, hiZ := true, swapAt := none }
      else if w.role = 2 ∧ w.state = .standby then { w.setRole 1 with state := .running, hiZ := false, swapAt := none }
      else { w with swapAt := none }))

end Sys2Proof.Machine
end

