-- ==== Sys2Proof/Machine/Dispatch.lean ====
section
/-! DEFINITION. One arm per command, each a direct call of its meaning. -/

namespace Sys2Proof.Machine

/-- A command's effect on everything but the queue. -/
def exec (i : Instr) (s : State) : Host.Outcome State Fault Refusal :=
  match i with
  | .porNDeassert => Sys2Proof.Machine.execPorNDeassert s
  | .perstNDeassert => Sys2Proof.Machine.execPerstNDeassert s
  | .resetPinAssert pin => Sys2Proof.Machine.execResetPinAssert pin s
  | .bringupPhaseEnd r => Sys2Proof.Machine.execBringupPhaseEnd r s
  | .fwSvnRaise => Sys2Proof.Machine.execFwSvnRaise s
  | .watchdogExpiry => Sys2Proof.Machine.execWatchdogExpiry s
  | .tempSample readings avgW => Sys2Proof.Machine.execTempSample readings avgW s
  | .thermalTrip => Sys2Proof.Machine.execThermalTrip s
  | .railOutOfRange rail => Sys2Proof.Machine.execRailOutOfRange rail s
  | .functionLevelReset fn => Sys2Proof.Machine.execFunctionLevelReset fn s
  | .vfEnable numVfs enable => Sys2Proof.Machine.execVfEnable numVfs enable s
  | .registerWrite fn bar offset size write => Sys2Proof.Machine.execRegisterWrite fn bar offset size write s
  | .ringEnable fn completion value => Sys2Proof.Machine.execRingEnable fn completion value s
  | .sqTailWrite fn value entries => Sys2Proof.Machine.execSqTailWrite fn value entries s
  | .cqHeadWrite fn value => Sys2Proof.Machine.execCqHeadWrite fn value s
  | .completionWrite fn => Sys2Proof.Machine.execCompletionWrite fn s
  | .intakeDbWrite fn slot value => Sys2Proof.Machine.execIntakeDbWrite fn slot value s
  | .resultDbWrite fn slot value => Sys2Proof.Machine.execResultDbWrite fn slot value s
  | .intakeRead slot entry => Sys2Proof.Machine.execIntakeRead slot entry s
  | .resultRecordWrite job cohort payloads => Sys2Proof.Machine.execResultRecordWrite job cohort payloads s
  | .bar4Access offset write len => Sys2Proof.Machine.execBar4Access offset write len s
  | .devQuery via => Sys2Proof.Machine.execDevQuery via s
  | .devSetTime via => Sys2Proof.Machine.execDevSetTime via s
  | .devResetWarm via => Sys2Proof.Machine.execDevResetWarm via s
  | .devResetCore via => Sys2Proof.Machine.execDevResetCore via s
  | .devSealRead via => Sys2Proof.Machine.execDevSealRead via s
  | .devSealBlow via blown => Sys2Proof.Machine.execDevSealBlow via blown s
  | .partConfigure via => Sys2Proof.Machine.execPartConfigure via s
  | .partSetWeir via => Sys2Proof.Machine.execPartSetWeir via s
  | .jobLoad via => Sys2Proof.Machine.execJobLoad via s
  | .jobStart via => Sys2Proof.Machine.execJobStart via s
  | .jobKill via => Sys2Proof.Machine.execJobKill via s
  | .jobPreempt via => Sys2Proof.Machine.execJobPreempt via s
  | .jobSetPriority via => Sys2Proof.Machine.execJobSetPriority via s
  | .jobCounts via => Sys2Proof.Machine.execJobCounts via s
  | .streamOpen via => Sys2Proof.Machine.execStreamOpen via s
  | .streamPause via => Sys2Proof.Machine.execStreamPause via s
  | .streamResume via => Sys2Proof.Machine.execStreamResume via s
  | .streamClose via => Sys2Proof.Machine.execStreamClose via s
  | .streamBindWharf via => Sys2Proof.Machine.execStreamBindWharf via s
  | .streamQuery via => Sys2Proof.Machine.execStreamQuery via s
  | .modelInstallLoad via readable => Sys2Proof.Machine.execModelInstallLoad via readable s
  | .modelInstallStore via pkg => Sys2Proof.Machine.execModelInstallStore via pkg s
  | .modelInstallDelete via => Sys2Proof.Machine.execModelInstallDelete via s
  | .modelDigestSetInterval via => Sys2Proof.Machine.execModelDigestSetInterval via s
  | .modelDigestSweep via => Sys2Proof.Machine.execModelDigestSweep via s
  | .modelDigestRead via => Sys2Proof.Machine.execModelDigestRead via s
  | .scaleSteerSet via => Sys2Proof.Machine.execScaleSteerSet via s
  | .wharfConfig via => Sys2Proof.Machine.execWharfConfig via s
  | .wharfArm via => Sys2Proof.Machine.execWharfArm via s
  | .wharfStart via => Sys2Proof.Machine.execWharfStart via s
  | .wharfStop via => Sys2Proof.Machine.execWharfStop via s
  | .wharfRefSelect via => Sys2Proof.Machine.execWharfRefSelect via s
  | .pairBind via => Sys2Proof.Machine.execPairBind via s
  | .pairMirrorStart via => Sys2Proof.Machine.execPairMirrorStart via s
  | .pairHandoverGive via => Sys2Proof.Machine.execPairHandoverGive via s
  | .pairHandoverReturn via => Sys2Proof.Machine.execPairHandoverReturn via s
  | .pairStatus via => Sys2Proof.Machine.execPairStatus via s
  | .pairUnbind via => Sys2Proof.Machine.execPairUnbind via s
  | .linkTrain via routes => Sys2Proof.Machine.execLinkTrain via routes s
  | .linkTrainStop via routes => Sys2Proof.Machine.execLinkTrainStop via routes s
  | .linkTrainClear via routes => Sys2Proof.Machine.execLinkTrainClear via routes s
  | .linkStatus via => Sys2Proof.Machine.execLinkStatus via s
  | .testScanNow via => Sys2Proof.Machine.execTestScanNow via s
  | .testScanInterval via => Sys2Proof.Machine.execTestScanInterval via s
  | .testCheckRate via => Sys2Proof.Machine.execTestCheckRate via s
  | .testObserveRead via => Sys2Proof.Machine.execTestObserveRead via s
  | .testObserveMark via => Sys2Proof.Machine.execTestObserveMark via s
  | .testObserveClear via => Sys2Proof.Machine.execTestObserveClear via s
  | .coreRetire via => Sys2Proof.Machine.execCoreRetire via s
  | .signatureExport via => Sys2Proof.Machine.execSignatureExport via s
  | .patternInstall via pkg => Sys2Proof.Machine.execPatternInstall via pkg s
  | .fwUpdate via img => Sys2Proof.Machine.execFwUpdate via img s
  | .fwActivate via => Sys2Proof.Machine.execFwActivate via s
  | .ledgerRead via => Sys2Proof.Machine.execLedgerRead via s
  | .ledgerWrite via data => Sys2Proof.Machine.execLedgerWrite via data s
  | .flashHealthSummary via => Sys2Proof.Machine.execFlashHealthSummary via s
  | .flashHealthRawRead via page readable => Sys2Proof.Machine.execFlashHealthRawRead via page readable s
  | .telemetryRead via => Sys2Proof.Machine.execTelemetryRead via s
  | .censusArm via => Sys2Proof.Machine.execCensusArm via s
  | .censusCancel via => Sys2Proof.Machine.execCensusCancel via s
  | .censusRead via => Sys2Proof.Machine.execCensusRead via s
  | .mctpControlMessage ep msg => Sys2Proof.Machine.execMctpControlMessage ep msg s
  | .mctpDataToKnarum ep seq offset data => Sys2Proof.Machine.execMctpDataToKnarum ep seq offset data s
  | .i3cAddressAssign setdasa address => Sys2Proof.Machine.execI3cAddressAssign setdasa address s
  | .ccInstruction step => Sys2Proof.Machine.execCcInstruction step s
  | .descriptorEnqueue core queue words => Sys2Proof.Machine.execDescriptorEnqueue core queue words s
  | .queueFullResume core => Sys2Proof.Machine.execQueueFullResume core s
  | .summaryFifoPop core rd => Sys2Proof.Machine.execSummaryFifoPop core rd s
  | .summaryStallResume core => Sys2Proof.Machine.execSummaryStallResume core s
  | .veSumTimeout core => Sys2Proof.Machine.execVeSumTimeout core s
  | .scanGate core rd => Sys2Proof.Machine.execScanGate core rd s
  | .scanSegmentEnd core pass response => Sys2Proof.Machine.execScanSegmentEnd core pass response s
  | .dmCopy core => Sys2Proof.Machine.execDmCopy core s
  | .dmFill core => Sys2Proof.Machine.execDmFill core s
  | .dmSendCore core => Sys2Proof.Machine.execDmSendCore core s
  | .dmFetchCore core => Sys2Proof.Machine.execDmFetchCore core s
  | .dmHbmRead core corrected => Sys2Proof.Machine.execDmHbmRead core corrected s
  | .dmHbmWrite core => Sys2Proof.Machine.execDmHbmWrite core s
  | .dmLinkSend core => Sys2Proof.Machine.execDmLinkSend core s
  | .meLoadw core => Sys2Proof.Machine.execMeLoadw core s
  | .meMatmul core => Sys2Proof.Machine.execMeMatmul core s
  | .meDrain core => Sys2Proof.Machine.execMeDrain core s
  | .meLoadrs core => Sys2Proof.Machine.execMeLoadrs core s
  | .meZero core => Sys2Proof.Machine.execMeZero core s
  | .mePrewarm core => Sys2Proof.Machine.execMePrewarm core s
  | .meLoadkv core => Sys2Proof.Machine.execMeLoadkv core s
  | .meMatmulC core => Sys2Proof.Machine.execMeMatmulC core s
  | .meCheck core => Sys2Proof.Machine.execMeCheck core s
  | .veFlight core => Sys2Proof.Machine.execVeFlight core s
  | .veSett core => Sys2Proof.Machine.execVeSett core s
  | .veLoadft core => Sys2Proof.Machine.execVeLoadft core s
  | .gpStep core => Sys2Proof.Machine.execGpStep core s
  | .waitf core queue => Sys2Proof.Machine.execWaitf core queue s
  | .waitd core queue => Sys2Proof.Machine.execWaitd core queue s
  | .lockSignal core queue => Sys2Proof.Machine.execLockSignal core queue s
  | .lockDepth core queue => Sys2Proof.Machine.execLockDepth core queue s
  | .commandCommit core commit => Sys2Proof.Machine.execCommandCommit core commit s
  | .waitComplete core queue => Sys2Proof.Machine.execWaitComplete core queue s
  | .waitDeadline core queue => Sys2Proof.Machine.execWaitDeadline core queue s
  | .veSumOverflow core => Sys2Proof.Machine.execVeSumOverflow core s
  | .creditTimeout core => Sys2Proof.Machine.execCreditTimeout core s
  | .meClockGate core => Sys2Proof.Machine.execMeClockGate core s
  | .meWakeEnd core => Sys2Proof.Machine.execMeWakeEnd core s
  | .maintenanceCycle core corrected => Sys2Proof.Machine.execMaintenanceCycle core corrected s
  | .rowMapOut core bank row => Sys2Proof.Machine.execRowMapOut core bank row s
  | .spadUe core bank row job => Sys2Proof.Machine.execSpadUe core bank row job s
  | .remoteAccessArrive core => Sys2Proof.Machine.execRemoteAccessArrive core s
  | .remoteCommitFlit core => Sys2Proof.Machine.execRemoteCommitFlit core s
  | .creditReturn core => Sys2Proof.Machine.execCreditReturn core s
  | .nocSignalArrive core => Sys2Proof.Machine.execNocSignalArrive core s
  | .lockQuarantineClear core lock => Sys2Proof.Machine.execLockQuarantineClear core lock s
  | .jobEnd job => Sys2Proof.Machine.execJobEnd job s
  | .switchHoldExpiry part => Sys2Proof.Machine.execSwitchHoldExpiry part s
  | .switchPark part => Sys2Proof.Machine.execSwitchPark part s
  | .switchComplete part => Sys2Proof.Machine.execSwitchComplete part s
  | .bargeGrant part weir link => Sys2Proof.Machine.execBargeGrant part weir link s
  | .cohortBoundary job cohort => Sys2Proof.Machine.execCohortBoundary job cohort s
  | .computeStart job cohort => Sys2Proof.Machine.execComputeStart job cohort s
  | .relayAckTimeout job cohort => Sys2Proof.Machine.execRelayAckTimeout job cohort s
  | .chunkCommit job cohort => Sys2Proof.Machine.execChunkCommit job cohort s
  | .runMessage link r => Sys2Proof.Machine.execRunMessage link r s
  | .bargeReceive link vc xfer bytes tag => Sys2Proof.Machine.execBargeReceive link vc xfer bytes tag s
  | .commitMessage link c => Sys2Proof.Machine.execCommitMessage link c s
  | .signalMessage link vc dest sig => Sys2Proof.Machine.execSignalMessage link vc dest sig s
  | .creditMessage link data mirror sync mgmt => Sys2Proof.Machine.execCreditMessage link data mirror sync mgmt s
  | .nack link seq => Sys2Proof.Machine.execNack link seq s
  | .timeMark link send echo recv => Sys2Proof.Machine.execTimeMark link send echo recv s
  | .chunkAck link dest src cohort chunk => Sys2Proof.Machine.execChunkAck link dest src cohort chunk s
  | .retarget link dest failed survivor => Sys2Proof.Machine.execRetarget link dest failed survivor s
  | .xferFail link dest xfer cause => Sys2Proof.Machine.execXferFail link dest xfer cause s
  | .relayAck link epoch cohort chunk => Sys2Proof.Machine.execRelayAck link epoch cohort chunk s
  | .mirrorAck link epoch cohort chunk => Sys2Proof.Machine.execMirrorAck link epoch cohort chunk s
  | .standDown link epoch cause => Sys2Proof.Machine.execStandDown link epoch cause s
  | .retract link dest cohort chunk src reason depth => Sys2Proof.Machine.execRetract link dest cohort chunk src reason depth s
  | .checkToken link dest cohort chunk src rate checked => Sys2Proof.Machine.execCheckToken link dest cohort chunk src rate checked s
  | .heartbeat link state epoch sender seq time => Sys2Proof.Machine.execHeartbeat link state epoch sender seq time s
  | .witnessPing link route epoch sender seq target time => Sys2Proof.Machine.execWitnessPing link route epoch sender seq target time s
  | .witnessEcho link route state epoch sender seq target time => Sys2Proof.Machine.execWitnessEcho link route state epoch sender seq target time s
  | .digestExchange link segment digest time => Sys2Proof.Machine.execDigestExchange link segment digest time s
  | .codewordUncorrectable link seq => Sys2Proof.Machine.execCodewordUncorrectable link seq s
  | .flitRelease link decodedAt corrected => Sys2Proof.Machine.execFlitRelease link decodedAt corrected s
  | .linkCreditReturn link => Sys2Proof.Machine.execLinkCreditReturn link s
  | .timeMarkSend link => Sys2Proof.Machine.execTimeMarkSend link s
  | .heartbeatSend padLevel => Sys2Proof.Machine.execHeartbeatSend padLevel s
  | .linkTrainingStep link f => Sys2Proof.Machine.execLinkTrainingStep link f s
  | .linkTrainTimeout link => Sys2Proof.Machine.execLinkTrainTimeout link s
  | .linkFailure link => Sys2Proof.Machine.execLinkFailure link s
  | .noParentTimeout => Sys2Proof.Machine.execNoParentTimeout s
  | .linkVariantSwitch variant => Sys2Proof.Machine.execLinkVariantSwitch variant s
  | .timeInEdge => Sys2Proof.Machine.execTimeInEdge s
  | .timeOutPulse => Sys2Proof.Machine.execTimeOutPulse s
  | .twinHbInEdge => Sys2Proof.Machine.execTwinHbInEdge s
  | .quietWitnessPing => Sys2Proof.Machine.execQuietWitnessPing s
  | .witnessTimeout route => Sys2Proof.Machine.execWitnessTimeout route s
  | .twinDecision localFault => Sys2Proof.Machine.execTwinDecision localFault s
  | .restoreComplete => Sys2Proof.Machine.execRestoreComplete s
  | .recoveryWindow job cohort => Sys2Proof.Machine.execRecoveryWindow job cohort s
  | .selfCheckFail c => Sys2Proof.Machine.execSelfCheckFail c s
  | .handoverTime => Sys2Proof.Machine.execHandoverTime s
  | .remirrorStart => Sys2Proof.Machine.execRemirrorStart s
  | .checkTimerExpiry part id => Sys2Proof.Machine.execCheckTimerExpiry part id s
  | .wharfTrigEdge => Sys2Proof.Machine.execWharfTrigEdge s
  | .wharfStartEdge reference => Sys2Proof.Machine.execWharfStartEdge reference s
  | .frameComplete wharf samples overrun => Sys2Proof.Machine.execFrameComplete wharf samples overrun s
  | .wharfBoundary wharf job cohort => Sys2Proof.Machine.execWharfBoundary wharf job cohort s
  | .txFrameOpening wharf => Sys2Proof.Machine.execTxFrameOpening wharf s
  | .slipLimitWindow => Sys2Proof.Machine.execSlipLimitWindow s
  | .refWindow edges0 edges1 => Sys2Proof.Machine.execRefWindow edges0 edges1 s
  | .refNoEdge ref => Sys2Proof.Machine.execRefNoEdge ref s
  | .bclkContend wharf => Sys2Proof.Machine.execBclkContend wharf s
  | .wharfOutputEnable wharf => Sys2Proof.Machine.execWharfOutputEnable wharf s
  | .wharfRoleSwap wharf => Sys2Proof.Machine.execWharfRoleSwap wharf s
  | .hbmRefresh stack pc => Sys2Proof.Machine.execHbmRefresh stack pc s
  | .hbmUe addr job => Sys2Proof.Machine.execHbmUe addr job s
  | .fullLoadInterval minus plus => Sys2Proof.Machine.execFullLoadInterval minus plus s
  | .digestSegmentDone part model segment => Sys2Proof.Machine.execDigestSegmentDone part model segment s
  | .chipSuspectExpiry => Sys2Proof.Machine.execChipSuspectExpiry s
  | .censusLatch => Sys2Proof.Machine.execCensusLatch s
  | .censusForward link t id radius => Sys2Proof.Machine.execCensusForward link t id radius s
  | .maintRelease activity => Sys2Proof.Machine.execMaintRelease activity s
  | .maintGrant activity => Sys2Proof.Machine.execMaintGrant activity s
  | .maintUrgent activity => Sys2Proof.Machine.execMaintUrgent activity s
  | .maintForced activity => Sys2Proof.Machine.execMaintForced activity s
  | .maintForcedRepeat activity => Sys2Proof.Machine.execMaintForcedRepeat activity s
  | .maintDone activity => Sys2Proof.Machine.execMaintDone activity s
  | .dredgeRead r => Sys2Proof.Machine.execDredgeRead r s
  | .dredgeIntervalUpdate => Sys2Proof.Machine.execDredgeIntervalUpdate s
  | .ledgerWriteDue => Sys2Proof.Machine.execLedgerWriteDue s
  | .nandTempRead t0 t1 => Sys2Proof.Machine.execNandTempRead t0 t1 s
  | .flashWearReport => Sys2Proof.Machine.execFlashWearReport s
  | .signatureFlush => Sys2Proof.Machine.execSignatureFlush s
  | .ringCheckpoint => Sys2Proof.Machine.execRingCheckpoint s
  | .flashOpFail block erase => Sys2Proof.Machine.execFlashOpFail block erase s
  | .commandTimeout mailbox seq => Sys2Proof.Machine.execCommandTimeout mailbox seq s
  | .retractedRecordAtBound job cohort => Sys2Proof.Machine.execRetractedRecordAtBound job cohort s
  | .hbmSelfRefreshExit => Sys2Proof.Machine.execHbmSelfRefreshExit s
  | .configRequest fn write offset value => Sys2Proof.Machine.execConfigRequest fn write offset value s
  | .timeNowRead fn high => Sys2Proof.Machine.execTimeNowRead fn high s
  | .jtagTckEdge tms tdi => Sys2Proof.Machine.execJtagTckEdge tms tdi s
  | .jtagTapReset => Sys2Proof.Machine.execJtagTapReset s
  | .i3cEnec => Sys2Proof.Machine.execI3cEnec s

end Sys2Proof.Machine
end

