-- ==== Sys2Proof/Machine/Tick.lean ====
section
/-! DEFINITION. What the chip does by itself in one nanosecond while no command waits: the clocks run, towpath events leave, idle links
send EMPTY flits, HBM enters self-refresh, a watchdog's reset begins, rates settle. -/

namespace Sys2Proof.Machine

/-- Schedule time in one nanosecond (R401): it follows its adjustment by at most 1 ns in any 1 µs and never runs backwards. -/
def TimeSt.tick (t : TimeSt) : TimeSt :=
  let up := t.up + 1
  if up % 1000 ≠ 0 ∨ t.adjust = 0 then { t with up := up, now := t.now + 1 }
  else if 0 < t.adjust then { t with up := up, now := t.now + 2, adjust := t.adjust - 1 }
  else { t with up := up, adjust := t.adjust + 1 }

/-- The oldest event of a towpath endpoint is sent (R676). -/
def State.sendTowpath (s : State) (ep : Nat) : State :=
  match (s.mgmt.ep ep).events with
  | [] => s
  | e :: rest =>
    if !s.rst.ready ∨ s.rst.quiesce.isSome then s
    else { s with mgmt := s.mgmt.modEp ep (fun p => { p with events := rest }) }.emit (.towEvent ep e)

/-- Maintenance that reads HBM: digest sweeps and reloads, a re-mirror, a retrain (R680, R687). -/
def actReadsHbm (id : Nat) : Bool := actKind id == 6 || actKind id == 7 || actKind id == 8

/-- HBM may be in self-refresh (R680). -/
def State.hbmIdle (s : State) : Bool :=
  s.rst.ready && !s.anyLive && (s.pair.state == .unbound || s.pair.state == .bound) && s.mgmt.exitAt.isNone &&
  !s.mgmt.acts.any (fun e => (e.2.phase == .running || e.2.phase == .granted) && actReadsHbm e.1)

/-- One nanosecond. -/
def State.tick (s : State) : State :=
  let s0 := s.endCycle
  let s1 := ({ s0 with time := s0.time.tick }.sendTowpath 0).sendTowpath 1
  let s2 := if s1.hbmIdle then { s1 with mgmt := { s1.mgmt with selfRefresh := true } } else s1
  if s2.watchdogDue then s2.warmReset .watchdog
  else (s2.each ((List.range 36).filter (fun l => (s2.link l).state == .up)) State.fillIdle).saveAll.settleRates

end Sys2Proof.Machine
end

