-- ==== Sys2Proof/Safety.lean ====
section
/-! DEFINITION. What counts as a safe state and a safe run, in the terms the claims use. -/

namespace Sys2Proof

open Sys2Proof.Machine

/-- A step goes on: it answers a next state. -/
def Goes (o : Outcome) : Prop := ∃ t, o = .next t

/-- A command completes: it answers a next state, and `P` holds of it. -/
def Completes (i : Instr) (s : State) (P : State → Prop) : Prop := ∃ t, exec i s = .next t ∧ P t

/-- Working: READY, with no reset pin low, no hold, stop, quiesce or supply fault. -/
abbrev Working (s : State) : Prop :=
  s.rst.ready = true ∧ s.rst.stop = 0 ∧ s.rst.quiesce = none ∧ s.rst.railFault = false ∧ s.rst.porLow = false ∧
  s.rst.perstLow = false ∧ s.rst.thermHold = false

/-- A row takes command `c` from `via` and runs it in `s1`; it is no CHECK_ONLY. -/
abbrev Runs (s : State) (via : Via) (op : Nat) (sel : Cmd → Bool) (s1 : State) (c : Cmd) : Prop :=
  s.taken via op sel = some (s1, c) ∧ c.checkOnly = false

/-- A command is in progress, waiting for `k`. -/
abbrev Waits (t : State) (c : Cmd) (k : Waiting) : Prop := ∃ w ∈ t.waits, w.cmd = c ∧ w.kind = k

/-- The reply of a command is on its way: it waits for the ring (R512), or it went out on the towpath. -/
def Replied (t : State) (c : Cmd) (status detail : Nat) (res : List Word) : Prop :=
  match c.origin with
  | .ring f => ({ isEvent := false, words := withCrc (replyWords 1 c status detail res) } : CqItem) ∈ (t.fn f).waiting
  | .tow e => Out.towReply e (withCrc (replyWords 1 c status detail res)) ∈ t.out

/-- The command rows: where the packet comes from, its opcode, and which of the opcode's packets the row takes. -/
def commandRow : Instr → Option (Via × Nat × (Cmd → Bool))
  | .devQuery via => some (via, 0x0101, fun _ => true)
  | .devSetTime via => some (via, 0x0102, fun _ => true)
  | .devResetWarm via => some (via, 0x0103, fun c => c.action != 1)
  | .devResetCore via => some (via, 0x0103, fun c => c.action == 1)
  | .devSealRead via => some (via, 0x0104, fun c => c.action != 1)
  | .devSealBlow via _ => some (via, 0x0104, fun c => c.action == 1)
  | .partConfigure via => some (via, 0x0201, fun _ => true)
  | .partSetWeir via => some (via, 0x0202, fun _ => true)
  | .jobLoad via => some (via, 0x0203, fun _ => true)
  | .jobStart via => some (via, 0x0204, fun _ => true)
  | .jobKill via => some (via, 0x0205, fun _ => true)
  | .jobPreempt via => some (via, 0x0206, fun _ => true)
  | .jobSetPriority via => some (via, 0x0207, fun _ => true)
  | .jobCounts via => some (via, 0x0208, fun _ => true)
  | .streamOpen via => some (via, 0x0301, fun _ => true)
  | .streamPause via => some (via, 0x0302, fun _ => true)
  | .streamResume via => some (via, 0x0303, fun _ => true)
  | .streamClose via => some (via, 0x0304, fun _ => true)
  | .streamBindWharf via => some (via, 0x0305, fun _ => true)
  | .streamQuery via => some (via, 0x0306, fun _ => true)
  | .modelInstallLoad via _ => some (via, 0x0401, fun c => c.action == 0 || c.action == 3)
  | .modelInstallStore via _ => some (via, 0x0401, fun c => c.action == 1)
  | .modelInstallDelete via => some (via, 0x0401, fun c => c.action == 2)
  | .modelDigestSetInterval via => some (via, 0x0402, fun c => c.action == 0)
  | .modelDigestSweep via => some (via, 0x0402, fun c => c.action == 1)
  | .modelDigestRead via => some (via, 0x0402, fun c => 2 ≤ c.action)
  | .scaleSteerSet via => some (via, 0x0403, fun _ => true)
  | .wharfConfig via => some (via, 0x0501, fun _ => true)
  | .wharfArm via => some (via, 0x0502, fun _ => true)
  | .wharfStart via => some (via, 0x0503, fun _ => true)
  | .wharfStop via => some (via, 0x0504, fun _ => true)
  | .wharfRefSelect via => some (via, 0x0505, fun _ => true)
  | .pairBind via => some (via, 0x0601, fun _ => true)
  | .pairMirrorStart via => some (via, 0x0602, fun _ => true)
  | .pairHandoverGive via => some (via, 0x0603, fun c => !bitAt (c.p 0) 0)
  | .pairHandoverReturn via => some (via, 0x0603, fun c => bitAt (c.p 0) 0)
  | .pairStatus via => some (via, 0x0604, fun _ => true)
  | .pairUnbind via => some (via, 0x0605, fun _ => true)
  | .linkTrain via _ => some (via, 0x0611, fun c => c.action == 0 || c.action == 3)
  | .linkTrainStop via _ => some (via, 0x0611, fun c => c.action == 1)
  | .linkTrainClear via _ => some (via, 0x0611, fun c => c.action == 2)
  | .linkStatus via => some (via, 0x0612, fun _ => true)
  | .testScanNow via => some (via, 0x0701, fun c => c.action != 1)
  | .testScanInterval via => some (via, 0x0701, fun c => c.action == 1)
  | .testCheckRate via => some (via, 0x0702, fun _ => true)
  | .testObserveRead via => some (via, 0x0703, fun c => c.action == 0 || c.action == 3)
  | .testObserveMark via => some (via, 0x0703, fun c => c.action == 1)
  | .testObserveClear via => some (via, 0x0703, fun c => c.action == 2)
  | .coreRetire via => some (via, 0x0704, fun _ => true)
  | .signatureExport via => some (via, 0x0705, fun _ => true)
  | .patternInstall via _ => some (via, 0x0706, fun _ => true)
  | .fwUpdate via _ => some (via, 0x0801, fun _ => true)
  | .fwActivate via => some (via, 0x0802, fun _ => true)
  | .ledgerRead via => some (via, 0x0803, fun _ => true)
  | .ledgerWrite via _ => some (via, 0x0804, fun _ => true)
  | .flashHealthSummary via => some (via, 0x0805, fun c => c.action != 1)
  | .flashHealthRawRead via _ _ => some (via, 0x0805, fun c => c.action == 1)
  | .telemetryRead via => some (via, 0x0901, fun _ => true)
  | .censusArm via => some (via, 0x0902, fun c => c.addr 0 != 0)
  | .censusCancel via => some (via, 0x0902, fun c => c.addr 0 == 0)
  | .censusRead via => some (via, 0x0903, fun _ => true)
  | _ => none

/-- Command `e` is at the head of queue `q` of core `c` with opcode `op`, and nothing stops it from being looked at: its job is RUNNING
in the core's partition (R322), no switch stalls the queue (R334), the job's compute window has begun (R31, R32), and a signal on its own core
names a valid lock of its job (R299; a link send's signal is for the destination chip). -/
abbrev AtHead (s : State) (c q op : Nat) (e : QEntry) : Prop :=
  ((s.core c).queue q).head? = some e ∧ e.op = op ∧ s.jobRuns c e.job = true ∧ s.stalledBy c e.job = false ∧
  s.awaitsCompute q e.job = false ∧ ((op = 0x0C ∧ q = 3) ∨ (s.core c).ownsSignal c e.job (dSignal c e.words) = true)

/-- Command `e` has left the head of queue `q` of core `c` and runs as `r`, last of the core's started commands. -/
abbrev Started (s t : State) (c q : Nat) (e : QEntry) (r : Running) : Prop :=
  r.queue = q ∧ r.job = e.job ∧ r.entry = e ∧ (t.core c).running = (s.core c).running ++ [r] ∧
  (t.core c).queue q = fixHead s.time.up ((s.core c).queue q).tail ∧ ∀ p, p ≠ q → (t.core c).queue p = (s.core c).queue p

/-- Nothing but core `c` changed. -/
abbrev OnlyCore (s t : State) (c : Nat) : Prop := { t with cores := s.cores } = s ∧ ∀ n, n ≠ c → t.core n = s.core n

/-- Nothing but the queues, the started commands and one engine of core `c` changed: the matrix engine, the vector engine, or the
scratchpad alone. -/
abbrev OnlyMe (s t : State) (c : Nat) : Prop :=
  OnlyCore s t c ∧ { t.core c with queues := (s.core c).queues, running := (s.core c).running, me := (s.core c).me } = s.core c
abbrev OnlyVe (s t : State) (c : Nat) : Prop :=
  OnlyCore s t c ∧ { t.core c with queues := (s.core c).queues, running := (s.core c).running, ve := (s.core c).ve } = s.core c
abbrev OnlySpad (s t : State) (c : Nat) : Prop :=
  OnlyCore s t c ∧ { t.core c with queues := (s.core c).queues, running := (s.core c).running, spad := (s.core c).spad } = s.core c

/-- The matrix engine's clock runs (R127). -/
abbrev MeAwake (k : CoreSt) : Prop := k.me.gated = false ∧ k.me.waking = false

/-- What ME_MATMUL asks of its core (R103, R109, R114, R120 to R122): a legal descriptor `ws`, pounds, clock, claims, a LOADED set `act` of the
right kind, rows in the right mode, tags, and for NEXTW an EMPTY shadow set and a legal image. -/
abbrev MatmulReady (k : CoreSt) (ws : List Word) (act : WeightSet) : Prop :=
  (MeAwake k) ∧
  ((meWordsOk ws (meFlagsAllowed 2) && planeOk ws 2 false && actPlaneOk (planeAt ws 2) (mBashaba ws) &&
    bits (dw ws 14) 24 8 == 0 && bits (dw ws 14) 0 5 == 0 && bits (dw ws 15) 24 8 == 0 && bits (dw ws 15) 0 5 == 0 &&
    decide (mRow0 ws + (planeAt ws 2).rows ≤ 256)) = true) ∧
  (mNextw ws = false → zeroWords ws 8 6 = true) ∧
  (mNextw ws = true → (planeOk ws 8 false && weightPlaneOk (planeAt ws 8) && planePound k.spad (dJob ws) (planeAt ws 8) false) = true ∧
    tagCheck k.spad (planeAt ws 8) = none ∧ headerOk (readPlane k.spad (planeAt ws 8)) (planeAt ws 8).fmt (mBashaba ws) = true ∧
    (mSwap ws = false → k.me.settle.shadowSet.state = 0)) ∧
  (act = if mSwap ws then k.me.settle.shadowSet else k.me.settle.activeSet) ∧
  (act.state = 2 ∧ act.bashaba = mBashaba ws ∧ (act.kv.isSome = true → (planeAt ws 2).fmt ≤ 2)) ∧
  (planePound k.spad (dJob ws) (planeAt ws 2) false = true ∧
    (fmtNarrow (planeAt ws 2).fmt = true → mBashaba ws = false → (k.spad.pound (planeAt ws 2).pound).allows (dJob ws) false
      (bits (dw ws 14) 0 24 + 8 * (planeAt ws 2).rows) = true) ∧
    (act.nOut ≠ 0 → (k.spad.pound (planeAt ws 2).pound).allows (dJob ws) false
      (bits (dw ws 15) 0 24 + 32 * (planeAt ws 2).rows) = true)) ∧
  (claimConflict k.running (writeClaim (mBank ws)) = false) ∧
  (mAccum ws = true → ∀ r < (planeAt ws 2).rows, k.me.int32 (mBank ws) (mRow0 ws + r) = mBashaba ws) ∧
  (tagCheck k.spad (planeAt ws 2) = none)

/-- What ME_MATMUL leaves in the matrix engine of a core `k` (R91, R104). -/
def Multiplied (k : CoreSt) (ws : List Word) (act : WeightSet) (m : Me) : Prop :=
  m.acc = ((List.range (planeAt ws 2).rows).foldl (matmulRow k.spad (planeAt ws 2) act ws)
    (if mSwap ws then k.me.settle.swap else k.me.settle)).acc ∧
  m.active = (if mSwap ws then k.me.shadow else k.me.active) ∧ m.activeSet = act ∧ m.rescale = k.me.rescale ∧
  (mSwap ws = true → mNextw ws = false → m.shadowSet.state = 0) ∧
  (mNextw ws = true → m.shadowSet = loadedSet (readPlane k.spad (planeAt ws 8)))

/-- The rows after which a reset may follow in the same step: a reset pin or supply, a bring-up phase, a failure or trip that ends the quiesce,
the last reply before a restart, and what ends the pair's sole duty. -/
def mayRestart : Instr → Bool
  | .bringupPhaseEnd .. | .commitMessage .. | .completionWrite .. | .cqHeadWrite .. | .handoverTime .. | .hbmUe .. | .heartbeat ..
  | .linkVariantSwitch .. | .maintDone .. | .mirrorAck .. | .perstNDeassert .. | .porNDeassert .. | .railOutOfRange ..
  | .registerWrite .. | .resetPinAssert .. | .ringEnable .. | .spadUe .. | .sqTailWrite .. | .tempSample .. | .thermalTrip ..
  | .watchdogExpiry .. | .witnessEcho .. => true
  | _ => false

/-- The rows that store to HBM without a restart: the host's window, a model's load, a job's load or start with its schedules, a command's
commit, a chunk's capture, rebuild or commit, and what a mirror, a relay or a restore writes. -/
def storesHbm : Instr → Bool
  | .bar4Access .. | .bargeReceive .. | .chunkCommit .. | .cohortBoundary .. | .commandCommit .. | .computeStart .. | .frameComplete ..
  | .jobLoad .. | .jobStart .. | .modelInstallLoad .. | .restoreComplete .. | .switchComplete .. | .wharfBoundary .. => true
  | _ => false

/-- The rows that store tags of HBM without a restart. -/
def storesTags : Instr → Bool
  | .bar4Access .. | .chunkCommit .. | .commandCommit .. | .computeStart .. | .jobStart .. | .modelInstallLoad .. | .restoreComplete ..
  | .switchComplete .. => true
  | _ => false

/-- Every CORE_MAP row holds a permutation of the columns 0 to 6 (R18). -/
abbrev MapOk (s : State) : Prop := s.coreMap.length = 4 ∧ ∀ w ∈ s.coreMap, coreMapOk w = true

/-- A closed JTAG port stays closed (R637): with its fuse blown the TAP is in reset and TDO hi-Z. -/
abbrev JtagClosed (s : State) : Prop := bitAt s.flash.sealFuses 1 = true → s.jtag = {}

end Sys2Proof
end

