-- ==== Sys2Proof/Certificates/Slice0/Obligations.lean ====
section
/-! DEFINITION. The statements about the model: the queue and the step, invariants, and for every command of the table that it
completes, with what. -/

open Sys2Proof Sys2Proof.Machine

/-! ## The queue and the step -/

/-- A step of a state with command c at the front of its queue is exec of c on the state with the queue's rest. -/
def Obligations.StepRunsFrontCommand : Prop :=
  ∀ (s : State) (c : Instr), step { s with pending := c :: s.pending } = exec c s

/-- On an empty queue a step answers the state one nanosecond later: the always-on clock has moved on by 1 ns, nothing waits,
and the HBM's bytes, jobs, streams and partitions are as before, unless a watchdog's reset is due or a lock signal of the cycle still breaks
its lock's range. This is the model's own choice (assumption log 1). -/
def Obligations.IdleStepIsANanosecond : Prop :=
  ∀ s : State, s.pending = [] → s.rst.watchdogAt = none → (∀ c < 24, (s.core c).overflows = []) →
    ∃ t, step s = .next t ∧ t.time.up = s.time.up + 1 ∧ t.pending = [] ∧ t.hbm = s.hbm ∧ t.jobs = s.jobs ∧
      t.streams = s.streams ∧ t.parts = s.parts ∧ t.rst = s.rst

/-- Every command answers a next state, in every state and whatever its operands, and none changes the queue of waiting commands. -/
def Obligations.CommandsLeaveTheQueue : Prop := ∀ (i : Instr) (s : State), ∃ t, exec i s = .next t ∧ t.pending = s.pending

/-! ## Invariants -/

/-- Every CORE_MAP row stays a permutation of the columns 0 to 6: no step breaks what R18 says of the core map. -/
def Obligations.CoreMapStaysPermutation : Prop := ∀ s t : State, MapOk s → step s = .next t → MapOk t

/-- A JTAG port that its fuse closed stays closed: no step moves the TAP out of reset or drives TDO. -/
def Obligations.JtagStaysClosed : Prop := ∀ s t : State, JtagClosed s → step s = .next t → JtagClosed t

/-- HBM keeps its canonical form: addresses strictly rising, no entry equal to what an unlisted address reads as. -/
def Obligations.HbmStaysCanonical : Prop := ∀ s t : State, s.hbm.wf = true → step s = .next t → t.hbm.wf = true

/-- What no command but the named ones changes: the core map, which only a restart takes over from the ledger; HBM and its tags, which
besides a restart only the rows that store to them change. The rows are those from which the model can reach such a change. -/
def Obligations.OnlyNamedCommandsWriteMemory : Prop :=
  ∀ (i : Instr) (s t : State), exec i s = .next t → mayRestart i = false →
    t.coreMap = s.coreMap ∧ (storesHbm i = false → t.hbm = s.hbm) ∧ (storesTags i = false → t.hbmTags = s.hbmTags)

/-- Right after reset the core map is a permutation in each row, the JTAG rule holds, HBM is in canonical form, and no command waits. -/
def Obligations.InvariantsHoldAtReset : Prop :=
  MapOk State.reset ∧ JtagClosed State.reset ∧ State.reset.hbm.wf = true ∧ State.reset.pending = []

/-- The registers whose reset value the spec gives as other than 0 read that value right after reset: CORE_MAP_ROWn, the four
weir registers, PART_CFG (AGE_MAX 8), CHK_CFG (RATE 2, RATE_MAX 4), the wheel, SPAD_RAS (8 spares), ME_STATUS (gated), SQ_CFG
and CQ_CFG (16 entries), LOCK_STATE (DEPTH 1), the wait deadline (50 µs), WH_CFG, TIME_STATUS (no parent) and the integrity
block (no core under scan, RATE 2); and the queue registers of every core read 0. -/
def Obligations.ResetRegisterValues : Prop :=
  (∀ r < 4, State.reset.bar0Word 0 (0x100 + 4 * r) = 0x001AC688) ∧
  (∀ p < 12, (∀ w < 4, State.reset.bar0Word 0 (0x1000 + 0x100 * p + 4 * w) = 0x00140010) ∧
    State.reset.bar0Word 0 (0x1010 + 0x100 * p) = 0x00080000 ∧ State.reset.bar0Word 0 (0x1050 + 0x100 * p) = 0x42) ∧
  (∀ c < 24, State.reset.bar0Word 0 (0x4040 + 0x200 * c) = 0x21542650 ∧ State.reset.bar0Word 0 (0x4044 + 0x200 * c) = 0x000152D0 ∧
    State.reset.bar0Word 0 (0x4048 + 0x200 * c) = 0x00080000 ∧ State.reset.bar0Word 0 (0x4100 + 0x200 * c) = 0x80000000 ∧
    State.reset.bar0Word 0 (0x41A8 + 0x200 * c) = 1 ∧ State.reset.bar0Word 0 (0x41BC + 0x200 * c) = 50 ∧
    ∀ q < 4, State.reset.bar0Word 0 (0x41C0 + 0x200 * c + 4 * q) = 0) ∧
  State.reset.bar0Word 0 0x10 = 4 ∧ State.reset.bar0Word 0 0x28 = 4 ∧
  (∀ w < 10, State.reset.bar0Word 0 (0x3C00 + 0x40 * w) = 8) ∧
  State.reset.bar0Word 0 0x3A08 = 0x003F0000 ∧ State.reset.bar0Word 0 0x3F00 = 0x1F000002

/-! ## Reset and bring-up (chapter 18) -/

/-- The reset pins: POR_N going high with PERST_N high begins a cold bring-up at phase 0, PERST_N going high outside a hold begins
a host bring-up at phase 0; a pin going low puts the chip in reset, and POR_N puts the JTAG port in reset too.
A bring-up phase ends: phase 0 gives phase 1, phase 2 gives phase 3, and phase 3 gives READY with attempts back at 0; phase 1
stops with STOP 3 when an anchor is bad. -/
def Obligations.ResetPinsAndBringup : Prop :=
  ((∀ s : State, s.rst.porLow = true → s.rst.coldPend = true → s.rst.perstLow = false →
    Completes .porNDeassert s (fun t => t.rst.porLow = false ∧ t.rst.kind = 0 ∧ t.rst.phase = 0 ∧ t.rst.ready = false ∧
      t.rst.stop = 0 ∧ t.time.now = 0 ∧ t.streams = [] ∧ t.jobs = [] ∧ t.pending = s.pending ∧ t.out = s.out)) ∧
  (∀ s : State, s.rst.perstLow = true → s.rst.porLow = false → s.rst.coldPend = false → s.rst.thermHold = false →
    s.rst.railFault = false →
    Completes .perstNDeassert s (fun t => t.rst.perstLow = false ∧ t.rst.kind = 1 ∧ t.rst.phase = 0 ∧ t.rst.ready = false ∧
      t.time.up = s.time.up ∧ t.streams = [] ∧ t.jobs = [] ∧ t.pending = s.pending ∧ t.out = s.out)) ∧
  (∀ s : State, Completes (.resetPinAssert .por) s (fun t => t.rst.porLow = true ∧ t.rst.coldPend = true ∧ t.rst.ready = false ∧
      t.jtag = {} ∧ t.streams = [] ∧ t.jobs = [] ∧ t.fns = [] ∧ t.pending = s.pending)) ∧
  (∀ s : State, s.rst.perstLow = false → s.rst.thermHold = false → s.rst.railFault = false →
    Completes (.resetPinAssert .perst) s (fun t => t.rst.perstLow = true ∧ t.rst.ready = false ∧ t.streams = [] ∧ t.jobs = [] ∧
      t.fns = [] ∧ t.jtag = s.jtag ∧ t.pending = s.pending))) ∧
  (∀ (s : State) (r : PhaseReport), s.rst.porLow = false → s.rst.perstLow = false → s.rst.thermHold = false →
    s.rst.railFault = false → s.rst.quiesce = none → s.rst.watchdogAt = none → s.rst.ready = false → s.rst.stop = 0 →
    (s.rst.phase = 0 → Completes (.bringupPhaseEnd r) s (fun t =>
      t = { s with rst := { s.rst with phase := 1, phaseUp := s.time.up } })) ∧
    (s.rst.phase = 1 → r.anchorsOk = false → Completes (.bringupPhaseEnd r) s (fun t =>
      t = { s with rst := { s.rst with stop := 3 } })) ∧
    (s.rst.phase = 2 → Completes (.bringupPhaseEnd r) s (fun t => t.rst.phase = 3 ∧ t.rst.ready = false ∧ t.jobs = s.jobs)) ∧
    (s.rst.phase = 3 → Completes (.bringupPhaseEnd r) s (fun t => t.rst.phase = 4 ∧ t.rst.ready = true ∧ t.rst.attempts = 0 ∧
      t.rst.readyTime = BitVec.ofNat 64 s.time.now)))

/-- What fences or restarts a working chip: a watchdog expiry marks the warm reset that follows 1 ms later and isolates the chip;
a thermal trip asserts THERMTRIP_N and begins a quiesce with cause 4; a rail out of range holds the chip in reset until POR_N;
an SPAD_UE or HBM_UE of a chip that does not hold the pair's streams alone begins a quiesce with cause 3 or 2. -/
def Obligations.FailuresRestartTheChip : Prop :=
  (∀ s : State, Working s → s.rst.watchdogAt = none → Completes .watchdogExpiry s (fun t =>
    t.rst.watchdogAt = some s.time.up ∧ t.pair.isolated = (s.pair.state != .fenced || s.pair.isolated) ∧
    (s.pair.state ≠ .unbound → t.pair.state = .fenced) ∧ t.jobs = s.jobs ∧ t.rst.ready = true)) ∧
  (∀ s : State, Working s → s.mgmt.thermtrip = false → (∃ e ∈ s.mgmt.hot, 3 ≤ e.2) → Completes .thermalTrip s (fun t =>
    t.mgmt.thermtrip = true ∧ t.mgmt.tripped = true ∧ t.rst.quiesce = some s.time.up ∧ t.rst.cause = 4 ∧ t.jobs = s.jobs)) ∧
  (∀ (s : State) (n : Fin 8), s.rst.porLow = false → s.rst.railFault = false → Completes (.railOutOfRange n) s (fun t =>
    t.rst.railFault = true ∧ t.rst.ready = false ∧ t.jobs = [] ∧ t.streams = [] ∧ t.pending = s.pending)) ∧
  (∀ (s : State) (c : Fin 24) (b : Fin 65) (row : Nat) (j : Option (Fin 96)), Working s → s.aloneWithStreams = false →
    Completes (.spadUe c b row j) s (fun t => t.rst.quiesce = some s.time.up ∧ t.rst.cause = 3 ∧
      (b.val < 64 → (s.siteOf c, b.val, row) ∈ t.flash.ledger.rowsPending) ∧ t.jobs = s.jobs)) ∧
  (∀ (s : State) (a : Nat) (j : Option (Fin 96)), Working s → s.aloneWithStreams = false →
    Completes (.hbmUe a j) s (fun t => t.rst.quiesce = some s.time.up ∧ t.rst.cause = 2 ∧
      (t.stack (stackOf (a / 4096))).ueAddr = BitVec.ofNat 64 a ∧ t.jobs = s.jobs))

/-- What a chip does by itself while it works: fuses take the SVN of an image that has run for 10 minutes; a sample sets Tj, and
the warning at 100 °C with its count; a maintenance cycle moves the scrub on; a row with three
corrected errors in 24 h takes a spare, and without one the core becomes RETIRING. -/
def Obligations.UpkeepOfTheChip : Prop :=
  (∀ (s : State) (v : FwImage), s.flash.image s.flash.fwImage = some v → s.rst.ready = true →
    s.flash.runningSince + 600000000000 ≤ s.time.up → s.flash.svn < v.svn →
    exec .fwSvnRaise s = .next { s with flash := { s.flash with svn := v.svn } }) ∧
  (∀ (s : State) (ts : List Int) (w : Nat), s.rst.thermHold = false → Completes (.tempSample ts w) s (fun t =>
    t.mgmt.sensors = ts.take 32 ∧ t.mgmt.tj = (hottest (ts.take 32)).1 ∧ t.mgmt.avgW = w ∧
    (100 ≤ (hottest (ts.take 32)).1 → s.mgmt.warn = false → t.mgmt.warn = true ∧ t.mgmt.warnings = satAdd s.mgmt.warnings 1) ∧
    ((hottest (ts.take 32)).1 < 97 → t.mgmt.warn = false) ∧ t.jobs = s.jobs ∧ t.streams = s.streams ∧ t.hbm = s.hbm)) ∧
  (∀ (s : State) (c : Fin 24) (es : List (Nat × Nat)), (s.core c).spad.maps = [] →
    exec (.maintenanceCycle c es) s = .next (s.modCore c (fun k =>
      { k with spad := { k.spad.corrected s.time.up es with scrub := (k.spad.scrub + 1) % 8192 } }))) ∧
  (∀ (s : State) (c : Fin 24) (b : Fin 64) (row : Nat),
    3 ≤ ((Table.look [] (s.core c).spad.rowCe (b * 1024 + row)).filter (fun t => decide (s.time.up < t + dayNs))).length →
    (∀ m ∈ (s.core c).spad.maps, ¬ (m.bank = b.val ∧ m.row = row)) →
    (Table.look 8 (s.core c).spad.spares b ≠ 0 → exec (.rowMapOut c b row) s = .next (s.modCore c (fun k => { k with spad := { k.spad with
      spares := Table.put 8 k.spad.spares b (Table.look 8 k.spad.spares b - 1), maps := k.spad.maps ++ [{ bank := b, row := row }] } }))) ∧
    (Table.look 8 (s.core c).spad.spares b = 0 → Completes (.rowMapOut c b row) s (fun t =>
      2 ≤ (t.healthOf c).state ∧ t.cores = s.cores ∧ t.hbm = s.hbm)))

/-! ## PCIe functions, registers and rings (chapter 14) -/

/-- A Function Level Reset gives a function's block its reset values: of PF0, with no job held, every function's, and the VFs go
off; of a VF whose partition holds no job, its own, and no core, job, byte of HBM or other function changes. VF Enable with NumVFs
12 turns the VFs on. -/
def Obligations.FunctionsResetAndEnable : Prop :=
  (∀ s : State, s.crs = false → (∀ j, (s.job j).state = .free) → Completes (.functionLevelReset 0) s (fun t =>
    t.vfEnable = false ∧ (∀ f : Fin 13, t.fn f = {}) ∧ t.cores = s.cores ∧ t.hbm = s.hbm ∧ t.out = s.out)) ∧
  (∀ (s : State) (f : Fin 13), f.val ≠ 0 → s.crs = false → (∀ j ∈ jobsOf (f - 1), (s.job j).state = .free) →
    Completes (.functionLevelReset f) s (fun t => t.fn f = {} ∧ (∀ g, g ≠ f.val → t.fn g = s.fn g) ∧
      { t with fns := s.fns, accepted := s.accepted, waits := s.waits } = s)) ∧
  (∀ s : State, s.crs = false → s.rst.stop = 0 → s.vfEnable = false →
    exec (.vfEnable 12 true) s = .next { s with numVfs := 12, vfEnable := true })

/-- Memory reads and configuration requests. A configuration request of a chip that bring-up has not made READY is answered CRS, and after
that a configuration read answers the word; BAR4 reads and writes the GiB of HBM that BAR4_WIN selects, and is an Unsupported Request
once its fuse is blown; a read of TIME_NOW_LO captures the high word, which TIME_NOW_HI then answers. -/
def Obligations.HostReadsAndWindows : Prop :=
  (∀ (s : State) (o : Fin 1073741824) (n : Nat), s.crs = false → bitAt s.flash.sealFuses 3 = false → s.barOpen = true →
    exec (.bar4Access o none n) s = .next (s.emit (.readBytes (s.hbm.readN ((s.fn 0).baseGib.toNat * 2 ^ 30 + o) (min n (2 ^ 30 - o)))))) ∧
  (∀ (s : State) (o : Fin 1073741824) (bs : List Byte), s.crs = false → bitAt s.flash.sealFuses 3 = false → s.barOpen = true →
    bs.length ≤ 2 ^ 30 - o → exec (.bar4Access o (some bs) bs.length) s =
      .next { s with hbm := s.hbm.writeN ((s.fn 0).baseGib.toNat * 2 ^ 30 + o) bs }) ∧
  (∀ (s : State) (o : Fin 1073741824) (w : Option (List Byte)) (n : Nat), bitAt s.flash.sealFuses 3 = true →
    exec (.bar4Access o w n) s = .next (s.emit (.unsupported 0))) ∧
  (∀ (s : State) (f : Fin 13) (o : Nat) (v : Word), s.crs = false → s.enumerated f = true → o < 4096 →
    exec (.configRequest f false o v) s = .next (s.emit (.readData f (BitVec.ofNat 64 (s.configWord f (o / 4)).toNat)))) ∧
  (∀ (s : State) (f : Fin 13) (w : Bool) (o : Nat) (v : Word), s.crs = true →
    exec (.configRequest f w o v) s = .next (s.emit (.crs f))) ∧
  (∀ (s : State) (f : Fin 13), s.crs = false → s.enumerated f = true → s.barOpen = true →
    Completes (.timeNowRead f false) s (fun t => t.out = s.out ++ [.readData f (BitVec.ofNat 64 (s.time.now % 2 ^ 32))] ∧
      (t.fn f).timeHi = BitVec.ofNat 32 (s.time.now / 2 ^ 32) ∧ { t with fns := s.fns, out := s.out } = s)) ∧
  (∀ (s : State) (f : Fin 13), s.crs = false → s.enumerated f = true → s.barOpen = true →
    exec (.timeNowRead f true) s = .next (s.emit (.readData f (BitVec.ofNat 64 (s.fn f).timeHi.toNat))))

/-- Register writes and ring setup. A 4-byte write of SQ_BASE_LO stores bits [31:12] while the ring is disabled and nothing while it is
enabled; BAR4_WIN takes a value up to 95 and ignores a greater one; LOCK_SEL takes the byte. Enabling a ring of a legal size starts it at entry 0. -/
def Obligations.RegisterWritesAndRingSetup : Prop :=
  (∀ (s : State) (f : Fin 13) (v : DWord) (es : List SqEntry), s.barOpen = true → s.enumerated f = true → (s.fn f).sqEn = false →
    exec (.registerWrite f 0 0x08 4 ⟨v, es⟩) s = .next (s.modFn f (fun b => { b with sqBase := baseLo b.sqBase (lo32 v.toNat) }))) ∧
  (∀ (s : State) (f : Fin 13) (v : DWord) (es : List SqEntry), s.barOpen = true → s.enumerated f = true → (s.fn f).sqEn = true →
    exec (.registerWrite f 0 0x08 4 ⟨v, es⟩) s = .next (s.setFn f (s.fn f))) ∧
  (∀ (s : State) (v : DWord) (es : List SqEntry), s.barOpen = true → bitAt s.flash.sealFuses 3 = false →
    Completes (.registerWrite 0 0 0x40 4 ⟨v, es⟩) s (fun t =>
      (bits (lo32 v.toNat).toNat 0 7 ≤ 95 → (t.fn 0).baseGib = BitVec.ofNat 7 (lo32 v.toNat).toNat) ∧
      (95 < bits (lo32 v.toNat).toNat 0 7 → t.fn 0 = s.fn 0) ∧ { t with fns := s.fns } = s)) ∧
  (∀ (s : State) (c : Fin 24) (v : DWord) (es : List SqEntry), s.barOpen = true → exec (.registerWrite 0 0 (0x41A0 + 0x200 * c) 4 ⟨v, es⟩) s =
    .next (s.modCore c (fun k => { k with lockSel := BitVec.ofNat 8 (lo32 v.toNat).toNat }))) ∧
  (∀ (s : State) (f : Fin 13) (w : Word), s.barOpen = true → s.enumerated f = true → s.rst.afterReply = none →
    4 ≤ bits w.toNat 0 4 → bits w.toNat 0 4 ≤ 12 → bitAt w.toNat 31 = true → (s.fn f).sqEn = false →
    Completes (.ringEnable f false w) s (fun t => (t.fn f).sqEn = true ∧ (t.fn f).sqHead = 0 ∧ (t.fn f).sqTail = 0 ∧
      (t.fn f).unread = [] ∧ (t.fn f).sqLog2.toNat = bits w.toNat 0 4 ∧ t.cores = s.cores ∧ t.hbm = s.hbm)) ∧
  (∀ (s : State) (f : Fin 13) (w : Word), s.barOpen = true → s.enumerated f = true → s.rst.afterReply = none →
    4 ≤ bits w.toNat 0 4 → bits w.toNat 0 4 ≤ 12 → bitAt w.toNat 31 = true → (s.fn f).cqEn = false → (s.fn f).waiting = [] →
    (s.fn f).unread = [] → Completes (.ringEnable f true w) s (fun t => (t.fn f).cqEn = true ∧ (t.fn f).cqHead = 0 ∧
      (t.fn f).cqNext = 0 ∧ (t.fn f).cqPhase = true ∧ (t.fn f).cqLog2.toNat = bits w.toNat 0 4 ∧ { t with fns := s.fns } = s))

/-- R732: a doorbell write to a disabled ring, or with an index at or above its entry count, is ignored and counted; both doorbells,
on every function. A tail equal to SQ_HEAD is an empty ring: nothing is read. -/
def Obligations.BadDoorbellsAreCounted : Prop :=
  ∀ (s : State) (f : Fin 13) (v : Word) (es : List SqEntry), s.barOpen = true → s.enumerated f = true → bits v.toNat 12 20 = 0 →
    ((s.fn f).sqEn = false ∨ 2 ^ (s.fn f).sqLog2.toNat ≤ v.toNat →
      exec (.sqTailWrite f v es) s = .next (s.modFn f (fun b => { b with stray := satAdd b.stray 1 }))) ∧
    ((s.fn f).cqEn = false ∨ 2 ^ (s.fn f).cqLog2.toNat ≤ v.toNat →
      exec (.cqHeadWrite f v) s = .next (s.modFn f (fun b => { b with stray := satAdd b.stray 1 }))) ∧
    ((s.fn f).sqEn = true → v.toNat < 2 ^ (s.fn f).sqLog2.toNat → v.toNat = (s.fn f).sqHead → (s.fn f).sqTail = (s.fn f).sqHead →
      (s.fn f).unread = [] → s.rst.afterReply = none → Completes (.sqTailWrite f v es) s (fun t => t.accepted = s.accepted ∧
        (t.fn f).sqHead = (s.fn f).sqHead ∧ (t.fn f).unread = []))

/-- The doorbells of working rings and the completion ring: SQ_TAIL and CQ_HEAD take the index; a waiting item is written at the next
entry with the phase bit in word 15 while the ring has room, and that changes no other function's block. -/
def Obligations.RingsTakeAndWrite : Prop :=
  (∀ (s : State) (f : Fin 13) (v : Word) (es : List SqEntry), s.barOpen = true → s.enumerated f = true → bits v.toNat 12 20 = 0 →
    (s.fn f).sqEn = true → v.toNat < 2 ^ (s.fn f).sqLog2.toNat → s.rst.afterReply = none →
    Completes (.sqTailWrite f v es) s (fun t => (t.fn f).sqTail = v.toNat ∧ t.cores = s.cores ∧ t.hbm = s.hbm ∧ t.jobs = s.jobs ∧
      t.streams = s.streams ∧ t.parts = s.parts ∧ t.rst = s.rst)) ∧
  (∀ (s : State) (f : Fin 13) (v : Word), s.barOpen = true → s.enumerated f = true → bits v.toNat 12 20 = 0 →
    (s.fn f).cqEn = true → v.toNat < 2 ^ (s.fn f).cqLog2.toNat → s.rst.afterReply = none → (s.fn f).waiting = [] →
    (s.fn f).unread = [] → exec (.cqHeadWrite f v) s = .next (s.modFn f (fun b => { b with cqHead := v.toNat }))) ∧
  (∀ (s : State) (f : Fin 13) (i : CqItem), s.ringsOpen = true → (s.fn f).waiting = [i] → (s.fn f).room ≠ 0 →
    (s.fn f).unread = [] → s.rst.afterReply = none → Table.look false s.msixOn f = false →
    Completes (.completionWrite f) s (fun t => (t.fn f).waiting = [] ∧
      t.out = s.out ++ [.completion f (s.fn f).cqNext (i.words ++ [pack [(b2n (s.fn f).cqPhase, 31)]])] ∧
      (∀ g, g ≠ f.val → t.fn g = s.fn g) ∧ { t with fns := s.fns, out := s.out } = s))

/-! ## The command path (chapter 15) -/

/-- A reply reaches the mailbox that carried the command: it waits for the function's ring or goes out on the towpath endpoint. It
changes no core, job, stream, partition or byte of HBM, only function blocks, the towpath and what has been sent. -/
def Obligations.ReplyReachesItsMailbox : Prop :=
  ∀ (s : State) (c : Cmd) (st d : Nat) (res : List Word), Replied (s.reply c st d res) c st d res ∧
    { s.reply c st d res with fns := s.fns, mgmt := s.mgmt, out := s.out } = s

/-- R536: a CHECK_ONLY packet that a command row takes is answered with result words 0, and has no other effect, whatever the command; a
status other than OK is the one that the same packet without CHECK_ONLY is answered with. -/
def Obligations.CheckOnlyHasNoEffect : Prop :=
  ∀ (i : Instr) (via : Via) (op : Nat) (sel : Cmd → Bool) (s s1 : State) (c : Cmd), commandRow i = some (via, op, sel) →
    s.taken via op sel = some (s1, c) → c.checkOnly = true → ∃ st d, exec i s = .next (s1.reply c st d []) ∧
      ∀ s2 : State, s2.taken via op sel = some (s1, { c with checkOnly := false }) → st ≠ St.ok →
        Completes i s2 (fun t => Replied t { c with checkOnly := false } st d [])

/-- Taking a packet in accepts at most that packet, and only one whose SEQ is not 0 (R535), whose opcode is listed (R540 step 2) and
which is kept as coming from its mailbox; earlier accepted packets stay as they are. -/
def Obligations.OnlyGoodPacketsAreAccepted : Prop :=
  ∀ (s : State) (o : Origin) (h p : List Word) (n : Nat),
    (s.acceptPacket o h p n).accepted = s.accepted ∨
    ∃ c : Cmd, (s.acceptPacket o h p n).accepted = s.accepted ++ [c] ∧ c.seq ≠ 0 ∧ (opInfo c.opcode).isSome = true ∧ c.origin = o

/-! ## Device commands (R552) -/

/-- The device commands complete: DEV_QUERY answers the device's words; DEV_SET_TIME sets schedule time, MASTER and PPS_EN and
answers the new time; DEV_RESET kind 0 marks the warm reset that follows its reply, kind 1 resets a core of a partition
without live jobs; DEV_SEAL_STATUS reads the fuses, and blows them and closes the JTAG port. -/
def Obligations.DeviceCommandsComplete : Prop :=
  (∀ (s s1 : State) (via : Via) (c : Cmd), Runs s via 0x0101 (fun _ => true) s1 c → s1.rst.stop ≠ 1 →
    exec (.devQuery via) s = .next (s1.reply c St.ok 0
      ([pack [(b2n (bitAt s1.flash.sealFuses 0), 31), (0, 30), (s1.rst.phase % 8, 24), (b2n s1.time.chipValid, 23),
        (s1.time.chip % 2048, 0)], s1.flash.version, pack [(s1.flash.fwImage % 2, 16), (s1.flash.svn % 65536, 0)], s1.flash.seq] ++
        s1.coreMap))) ∧
  (∀ (s s1 : State) (via : Via) (c : Cmd), Runs s via 0x0102 (fun _ => true) s1 c → c.p 2 = 2 ∨ c.p 2 = 3 →
    (∀ j, (s1.job j).state ≠ .running ∧ (s1.job j).state ≠ .parked) →
    Completes (.devSetTime via) s (fun t => Replied t c St.ok 0 [lo32 (c.addr 0), hi32 (c.addr 0)] ∧ t.time.now = c.addr 0 ∧
      t.time.master = true ∧ t.time.locked = true ∧ t.time.ppsEn = decide (c.p 2 = 3) ∧
      { t with fns := s1.fns, mgmt := s1.mgmt, out := s1.out, time := s1.time } = s1)) ∧
  (∀ (s s1 : State) (via : Via) (c : Cmd), Runs s via 0x0103 (fun c => c.action != 1) s1 c → c.p 0 = 0 → s1.pair.state = .unbound →
    Completes (.devResetWarm via) s (fun t => Replied t c St.ok 0 [] ∧ t.rst.afterReply = some (c.origin.code, c.seq, .devReset) ∧
      { t with fns := s1.fns, mgmt := s1.mgmt, out := s1.out, rst := s1.rst } = s1)) ∧
  (∀ (s s1 : State) (via : Via) (c : Cmd) (k : Nat), Runs s via 0x0103 (fun c => c.action == 1) s1 c → c.p 0 = 0x40000000 + k → k < 24 →
    s1.live (partOfCore k) = [] →
    Completes (.devResetCore via) s (fun t => Replied t c St.ok 0 [] ∧ (t.core k).cc.halted = true ∧ (t.core k).queues = [] ∧
      (t.core k).locks = [] ∧ (t.core k).spad.pounds = [] ∧ (t.core k).spad.credits = [] ∧ (t.core k).me.set0.state = 0 ∧
      (t.core k).me.set1.state = 0 ∧ (t.core k).me.mode = [] ∧ (t.core k).ve.fifo = [] ∧ (t.core k).ve.flights = [] ∧
      (t.core k).spad.bytes = (s1.core k).spad.bytes ∧ (t.core k).spad.tags = (s1.core k).spad.tags ∧
      (∀ n, n ≠ k → t.core n = s1.core n) ∧ t.coreMap = s1.coreMap ∧ t.hbm = s1.hbm ∧ t.jobs = s1.jobs)) ∧
  (∀ (s s1 : State) (via : Via) (c : Cmd), Runs s via 0x0104 (fun c => c.action != 1) s1 c → c.p 0 = 0 → c.p 1 = 0 →
    exec (.devSealRead via) s = .next (s1.reply c St.ok 0 [BitVec.ofNat 32 s1.flash.sealFuses])) ∧
  (∀ (s s1 : State) (via : Via) (c : Cmd), Runs s via 0x0104 (fun c => c.action == 1) s1 c → c.p 0 = 0x40000000 → c.p 1 = 0x5EA10C3D →
    s1.flash.sealFuses < 16 →
    Completes (.devSealBlow via 15) s (fun t => Replied t c St.ok 0 [15] ∧ t.flash.sealFuses = 15 ∧ t.jtag = {} ∧
      { t with fns := s1.fns, mgmt := s1.mgmt, out := s1.out, flash := s1.flash, jtag := s1.jtag } = s1))

/-- A command row without a packet to run changes nothing: from a ring, with no accepted packet of its opcode and action, exec answers
the state itself.
A command whose stated time has passed is answered TIMEOUT and is no longer in progress; it has no other effect. -/
def Obligations.CommandsWithoutEffect : Prop :=
  (∀ (i : Instr) (f : Fin 13) (op : Nat) (sel : Cmd → Bool) (s : State), commandRow i = some (.ring f, op, sel) →
    s.accepted.find? (fun c => c.origin == .ring f && c.opcode == op && sel c) = none → exec i s = .next s) ∧
  (∀ (s : State) (w : Wait) (n : Nat), s.waits = [w] → s.accepted = [] → w.cmd.origin = .ring n → n < 13 → s.late w.cmd = true →
    Completes (.commandTimeout (Fin.ofNat 15 n) w.cmd.seq) s (fun t => Replied t w.cmd St.timeout 0 [] ∧ t.waits = [] ∧
      { t with fns := s.fns, waits := s.waits } = s))

/-! ## Partitions and jobs (chapter 09) -/

/-- Partition and job commands complete: PART_CONFIGURE of a partition without jobs, PART_SET_WEIR of one without a RUNNING job,
JOB_KILL, JOB_PREEMPT, JOB_SET_PRIORITY of a LOADED job at once and of a RUNNING one at a commit, JOB_COUNTS. -/
def Obligations.PartitionCommandsComplete : Prop :=
  (∀ (s s1 : State) (via : Via) (c : Cmd) (b : Nat), Runs s via 0x0201 (fun _ => true) s1 c → c.configureBad = none →
    s1.resident c.partition = [] → s1.noSpare c.partition = false → (∀ k < 4, (s1.stack k).trained = true) →
    ((List.range 12).map (fun n => if n ≠ c.partition ∧ (s1.part n).configured then (s1.part n).hbmGib else 0)).sum + c.f 0 0 8 ≤ 80 →
    s1.hbmBase c.partition (c.f 0 0 8) = some b →
    Completes (.partConfigure via) s (fun t =>
      Replied t c St.ok 0 [BitVec.ofNat 32 (if c.f 0 0 8 = 0 then 0 else b)] ∧ (t.part c.partition).configured = true ∧
      (t.part c.partition).hbmGib = c.f 0 0 8 ∧ (t.part c.partition).ageMax = c.f 0 16 6 ∧
      (t.part c.partition).preemptEn = bitAt (c.p 0) 30 ∧ (t.part c.partition).weirsSet = (s1.part c.partition).weirsSet ∧
      (∀ n, n ≠ c.partition → t.part n = s1.part n) ∧ t.jobs = s1.jobs)) ∧
  (∀ (s s1 : State) (via : Via) (c : Cmd), Runs s via 0x0202 (fun _ => true) s1 c →
    firstBad [c.stray [0x033F01FF, 0x7F], req (c.f 0 0 9 ≤ 256) 8,
      req (if c.f 0 24 2 = 3 then c.f 0 16 6 < 32 || c.f 0 16 6 == 0x3F else c.f 0 16 6 == 0) 8,
      req (1 ≤ c.f 1 0 7 && c.f 1 0 7 ≤ 64) 9] = none →
    s1.weirSums c.partition ((s1.plannedPart c.partition).setWeir (c.f 0 24 2) (c.f 0 16 6) (c.f 0 0 9) (c.f 1 0 7) s1.time.up)
      (c.f 0 24 2) (c.f 0 16 6) = true → s1.live c.partition = [] → s1.jobsIn c.partition .running = [] →
    exec (.partSetWeir via) s =
      .next ((s1.applyWeir c.partition (c.f 0 24 2) (c.f 0 16 6) (c.f 0 0 9) (c.f 1 0 7)).reply c St.ok 0 [])) ∧
  (∀ (s s1 : State) (via : Via) (c : Cmd), Runs s via 0x0205 (fun _ => true) s1 c → (s1.job c.job).state ≠ .free →
    Completes (.jobKill via) s (fun t => Replied t c St.ok 0 [] ∧ (t.job c.job).state = .free ∧
      ∀ k ∈ coresOf (partOfJob c.job), (∀ r ∈ (t.core k).running, r.job ≠ c.job) ∧ ∀ q < 4, ∀ e ∈ (t.core k).queue q, e.job ≠ c.job)) ∧
  (∀ (s s1 : State) (via : Via) (c : Cmd), Runs s via 0x0206 (fun _ => true) s1 c → c.p 0 < 96 → s1.preemptRefusal c = none →
    s1.switchHeld (c.job / 8) (c.f 0 0 7) = false →
    Completes (.jobPreempt via) s (fun t => Waits t c (.switch (c.job / 8)) ∧ (t.part (c.job / 8)).lastSwitch = some s1.time.up ∧
      (t.part (c.job / 8)).switch = some { victim := some c.job, incoming := c.p 0, parkedAt := none } ∧
      { t with parts := s1.parts, waits := s1.waits } = s1)) ∧
  (∀ (s s1 : State) (via : Via) (c : Cmd), Runs s via 0x0207 (fun _ => true) s1 c → c.p 0 < 2 →
    ((s1.job c.job).state = .loaded → exec (.jobSetPriority via) s =
      .next ((s1.modJob c.job (fun b => { b with bulk := decide (c.p 0 = 1) })).reply c St.ok 0 [])) ∧
    ((s1.job c.job).state = .running → Completes (.jobSetPriority via) s (fun t =>
      (t.job c.job).classPend = some (decide (c.p 0 = 1)) ∧ (t.job c.job).bulk = (s1.job c.job).bulk ∧
      Waits t c (.commit (some (partOfJob c.job)) (some c.job) (some 0) (.cls (decide (c.p 0 = 1)))) ∧
      { t with jobs := s1.jobs, waits := s1.waits } = s1))) ∧
  (∀ (s s1 : State) (via : Via) (c : Cmd), Runs s via 0x0208 (fun _ => true) s1 c →
    exec (.jobCounts via) s = .next (s1.reply c St.ok 0 [(s1.part c.partition).started, (s1.part c.partition).completed,
      (s1.part c.partition).killed, (s1.part c.partition).preempted]))

/-- JOB_LOAD of a legal image makes the lowest free job of the partition LOADED with that image, and answers its number; its placement's
programs go into HBM. The partition's other jobs, the rest of the HBM and, unless a control core of the partition has trapped or the last
credits of the number's earlier job are still out, the cores are as before. -/
def Obligations.JobLoadAssignsAJob : Prop :=
  ∀ (s s1 : State) (via : Via) (c : Cmd) (m : ModelPkg) (i : Image) (q : Placement) (j : Nat), Runs s via 0x0203 (fun _ => true) s1 c →
    s1.flash.models.any (fun x => x.pkg.id == c.f 0 16 16) = true → c.p 1 < 4 → s1.imageOf c = some (m, i, q) →
    (s1.part c.partition).configured = true → s1.resident c.partition = [] →
    (jobsOf c.partition).find? (fun n => (s1.job n).state == .free) = some j →
    s1.loaded.any (fun l => l.part == c.partition && l.model == m.id) = true → q.resident = [(m.id, i.index)] →
    i.contextLegal = true → (bitAt (c.p 1) 0 = true → i.guardBuild = true) → c.calBad i = none →
    (c.bashabaOk i && i.sizesLegal && i.hashLegal && i.kv.all (·.legal) && m.tables.all (fun t => tableAbsent t || tableValid t)) = true →
    (s1.part c.partition).preemptEn = false → s1.integ.devRate ≤ i.rateMax →
    ((coresOf c.partition).all (fun k => s1.poundsFit k (i.coreSpec k) && s1.locksFit k (i.coreSpec k) &&
      s1.creditsFit k (i.coreSpec k)) && (s1.part c.partition).poolsFit i) = true →
    Completes (.jobLoad via) s (fun t =>
      Replied t c St.ok 0 [BitVec.ofNat 32 j, pack [(i.rowsPaired % 2048, 16), (i.rowsSolo % 2048, 0)], BitVec.ofNat 32 i.boundUs] ∧
      (t.job j).state = .loaded ∧ (t.job j).image = i ∧ (t.job j).bulk = i.bulk ∧ (t.job j).guardOn = bitAt (c.p 1) 0 ∧
      (t.job j).placement = q ∧ (∀ n, n ≠ j → t.job n = s1.job n) ∧ t.hbm = s1.hbm.writeN (t.scheduleAt j) q.programs.flatten ∧
      ((coresOf c.partition).any (fun k => (s1.core k).cc.trapped) = false → s1.freeing.contains j = false → t.cores = s1.cores) ∧
      t.parts = s1.parts ∧ t.streams = s1.streams)

/-- JOB_START of a LOADED job on a partition whose weirs are set starts it: it is RUNNING, counted as started, and answered OK. -/
def Obligations.JobStartRunsTheJob : Prop :=
  ∀ (s s1 : State) (via : Via) (c : Cmd), Runs s via 0x0204 (fun _ => true) s1 c → (s1.job c.job).state = .loaded →
    ((s1.job c.job).image.spansChips = true → s1.time.locked = true) → (s1.part (partOfJob c.job)).weirsSet = 0xF →
    (s1.part (partOfJob c.job)).meets (s1.job c.job).image = true → s1.veFits c.job = true → s1.mgmt.selfRefresh = false →
    s1.quarantined c.job = false →
    Completes (.jobStart via) s (fun t => Replied t c St.ok 0 [] ∧ (t.job c.job).state = .running ∧
      (t.part (partOfJob c.job)).started = (s1.part (partOfJob c.job)).started + 1 ∧ t.pending = s1.pending)

/-- R738: JOB_START is refused with WRONG_STATE, its detail WEIRS_SET, until each of the four weirs of the partition is set. -/
def Obligations.JobStartNeedsAllWeirs : Prop :=
  ∀ (s s1 : State) (via : Via) (c : Cmd), Runs s via 0x0204 (fun _ => true) s1 c →
    ((s1.job c.job).image.spansChips = true → s1.time.locked = true) →
    (s1.job c.job).state = .loaded ∨ ((s1.job c.job).state = .parked ∧ s1.jobsIn (partOfJob c.job) .running = []) →
    (s1.part (partOfJob c.job)).weirsSet ≠ 0xF →
    exec (.jobStart via) s = .next (s1.reply c St.wrongState (s1.part (partOfJob c.job)).weirsSet.toNat [])

/-- What happens to jobs by themselves: a job with no command left and its locks as found ends, counted as completed, and one that leaves
a lock of its own otherwise is killed with LOCK_LEFT; the oldest held JOB_PREEMPT begins its switch; a switch parks its victim, or has none
left to park, and then runs the incoming job, LOADED or PARKED, and answers OK; an arbiter that no grant holds grants the request that it
serves first when the bucket holds its length, takes the length from the bucket, and is held for the barge's time. A granted write of HBM has
no other effect, a granted barge of a send to another core is on its way there, and that of an HBM read is read and written to its place. -/
def Obligations.JobEventsComplete : Prop :=
  (∀ (s : State) (j : Fin 96), (s.job j).state = .running →
    (∀ c ∈ coresOf (partOfJob j), (∀ r ∈ (s.core c).running, r.job ≠ j) ∧ (∀ q < 4, ∀ e ∈ (s.core c).queue q, e.job ≠ j)) →
    ((∀ c ∈ coresOf (partOfJob j), ∀ e ∈ (s.core c).locks,
        e.2.valid = true → e.2.owner = j.val → e.2.cohort = 0x3F → e.2.asFound = true) →
      Completes (.jobEnd j) s (fun t => (t.job j).state = .free ∧
        (t.part (partOfJob j)).completed = (s.part (partOfJob j)).completed + 1 ∧
        (t.part (partOfJob j)).killed = (s.part (partOfJob j)).killed)) ∧
    ((∃ c ∈ coresOf (partOfJob j), ∃ e ∈ (s.core c).locks,
        e.2.valid = true ∧ e.2.owner = j.val ∧ e.2.cohort = 0x3F ∧ e.2.asFound = false) →
      Completes (.jobEnd j) s (fun t => (t.job j).state = .free ∧
        (t.part (partOfJob j)).completed = (s.part (partOfJob j)).completed ∧
        (t.part (partOfJob j)).killed = (s.part (partOfJob j)).killed + 1))) ∧
  (∀ (s : State) (p : Fin 12) (w : Wait), s.waits.find? (fun w => w.kind == .hold p) = some w → w.cmd.job / 8 = p.val →
    s.switchHeld p (w.cmd.f 0 0 7) = false → s.preemptRefusal w.cmd = none →
    Completes (.switchHoldExpiry p) s (fun t => Waits t w.cmd (.switch p) ∧ (t.part p).lastSwitch = some s.time.up ∧
      (t.part p).switch = some { victim := some w.cmd.job, incoming := w.cmd.f 0 0 7, parkedAt := none } ∧
      { t with parts := s.parts, waits := s.waits } = s)) ∧
  (∀ (s : State) (p : Fin 12) (v i : Nat), (s.part p).switch = some { victim := some v, incoming := i, parkedAt := none } →
    partOfJob v = p.val → s.stepOneDone p v = true →
    Completes (.switchPark p) s (fun t => (t.job v).state = .parked ∧
      (t.part p).switch = some { victim := some v, incoming := i, parkedAt := some s.time.up } ∧
      (t.part p).preempted = (s.part p).preempted + 1 ∧ t.hbm = s.hbm ∧ t.streams = s.streams)) ∧
  (∀ (s : State) (p : Fin 12) (i : Nat), (s.part p).switch = some { victim := none, incoming := i, parkedAt := none } →
    exec (.switchPark p) s = .next (s.modPart p (fun q => { q with
      switch := some { victim := none, incoming := i, parkedAt := some s.time.up } }))) ∧
  (∀ (s : State) (p : Fin 12) (v : Option Nat) (i at_ : Nat), (s.part p).switch = some { victim := v, incoming := i, parkedAt := some at_ } →
    partOfJob i = p.val → (s.job i).state = .parked ∨ (s.job i).state = .loaded →
    Completes (.switchComplete p) s (fun t => (t.job i).state = .running ∧ (t.part p).switch = none ∧
      (∀ w ∈ s.waits, w.kind = .switch p → Replied t w.cmd St.ok 0 []) ∧ ∀ w ∈ t.waits, w.kind ≠ .switch p)) ∧
  (∀ (s : State) (p : Fin 12) (w : Fin 4) (n : Fin 32) (r : BargeReq), s.nextGrant p w = some r → (w.val = 3 → r.link = n) →
    Table.look 0 (s.part p).held w ≤ s.time.up → r.job < 96 →
    r.bytes * 256 ≤ ((Table.look {} (s.part p).weirs r.key).refill r.key s.time.up).level →
    Completes (.bargeGrant p w n) s (fun t =>
      (Table.look {} (t.part p).weirs r.key).level = ((Table.look {} (s.part p).weirs r.key).refill r.key s.time.up).level - r.bytes * 256 ∧
      Table.look 0 (t.part p).held w = s.time.up + grantNs w r.bytes ∧ Out.barge p w r.link r.job r.bytes ∈ t.out ∧
      (w.val = 1 → r.core ≠ noCore → t.out = s.out ++ [.barge p w r.link r.job r.bytes] ∧
        (t.part p).reqs.length + 1 = (s.part p).reqs.length ∧ t.integ.granted = s.integ.granted + r.bytes ∧
        { t with parts := s.parts, out := s.out, integ := s.integ } = s) ∧
      (w.val = 2 → r.core ≠ noCore → ∀ x, (s.core r.core).sends.find? (fun x => x.cmd == r.cmd) = some x →
        (t.core x.dest).arrivals = (s.core x.dest).arrivals ++
          [{ src := r.core, job := x.job, credit := x.credit, plane := x.plane, bytes := x.todo.headD [], cmd := x.cmd }]) ∧
      (w.val = 0 → r.core ≠ noCore → ∀ x bs,
        (s.core r.core).running.find? (fun x => x.queue == 3 && x.entry.stamp == r.cmd) = some x →
        readBarge s (Table.look [] s.sluice (partOfCore r.core)) (planeAt x.entry.words 8).flat (hSluice x.entry.words)
          ((s.part (partOfCore r.core)).firstBarge + hBarge x.entry.words + r.index) r.index = .inr bs →
        (t.core r.core).spad.bytes = (s.core r.core).spad.bytes.writes (((x.dest.drop (4096 * r.index)).take 4096).zip bs))))

/-! ## Streams and intake (chapter 14) -/

/-- The stream commands complete. STREAM_OPEN holds a row and an index and waits for its cohort's commit; STREAM_PAUSE, STREAM_RESUME
and STREAM_CLOSE plan the new state and wait for the commit, the stream itself going on as it is until then; STREAM_QUERY
answers the stream's words. -/
def Obligations.StreamCommandsComplete : Prop :=
  (∀ (s s1 : State) (via : Via) (c : Cmd) (k row i : Nat), Runs s via 0x0301 (fun _ => true) s1 c → s1.openBad c = none →
    s1.pair.state = .mirrored ∨ s1.pair.state = .bound ∨ s1.pair.state = .unbound ∨ s1.pair.state = .solo ∨ s1.pair.state = .unmirrored →
    s1.forcedOn (partOfJob c.job) = none → s1.placeFor c = some (k, row) → s1.freeIndex = some i →
    Completes (.streamOpen via) s (fun t => (t.stream i).map (·.state) = some .opening ∧
      (t.stream i).map (fun st => (st.adm.job, st.adm.cohort, st.adm.row)) = some (c.job, k, row) ∧
      Waits t c (.commit (some (partOfJob c.job)) (some c.job) (some k) (.openRow i)) ∧
      (∀ n, n ≠ i → t.stream n = s1.stream n) ∧ { t with streams := s1.streams, waits := s1.waits } = s1)) ∧
  (∀ (s s1 : State) (via : Via) (c : Cmd) (st : Stream), Runs s via 0x0302 (fun _ => true) s1 c → s1.twinCarries (c.p 0) = false →
    s1.knownPair (c.p 0) = true → s1.openHandle (c.p 0) = some st → st.planned = .live → st.adm.source ≠ .link →
    Completes (.streamPause via) s (fun t => t.stream (handleIndex (c.p 0)) = some { st with planned := .paused } ∧
      Waits t c (.commit (some (partOfJob st.adm.job)) (some st.adm.job) (some st.adm.cohort) (.pause (handleIndex (c.p 0)))) ∧
      { t with streams := s1.streams, waits := s1.waits } = s1)) ∧
  (∀ (s s1 : State) (via : Via) (c : Cmd) (st : Stream), Runs s via 0x0303 (fun _ => true) s1 c → s1.twinCarries (c.p 0) = false →
    s1.knownPair (c.p 0) = true → s1.openHandle (c.p 0) = some st → st.planned = .paused → st.adm.source ≠ .link →
    Completes (.streamResume via) s (fun t => t.stream (handleIndex (c.p 0)) = some { st with planned := .live } ∧
      Waits t c (.commit (some (partOfJob st.adm.job)) (some st.adm.job) (some st.adm.cohort) (.resume (handleIndex (c.p 0)))) ∧
      { t with streams := s1.streams, waits := s1.waits } = s1)) ∧
  (∀ (s s1 : State) (via : Via) (c : Cmd) (st : Stream), Runs s via 0x0304 (fun _ => true) s1 c → s1.twinCarries (c.p 0) = false →
    s1.knownPair (c.p 0) = true → s1.openHandle (c.p 0) = some st → st.planned = .live ∨ st.planned = .paused →
    st.adm.source ≠ .link → c.p 1 < 65536 → c.p 1 ≤ (s1.job st.adm.job).image.shape.n →
    Completes (.streamClose via) s (fun t => t.stream (handleIndex (c.p 0)) = some { st with planned := .closing } ∧
      Waits t c (.commit (some (partOfJob st.adm.job)) (some st.adm.job) (some st.adm.cohort) (.close (handleIndex (c.p 0)) (c.p 1))) ∧
      { t with streams := s1.streams, waits := s1.waits } = s1)) ∧
  (∀ (s s1 : State) (via : Via) (c : Cmd) (st : Stream), Runs s via 0x0306 (fun _ => true) s1 c → s1.twinCarries (c.p 0) = false →
    s1.knownPair (c.p 0) = true → s1.openHandle (c.p 0) = some st →
    exec (.streamQuery via) s = .next (s1.reply c St.ok 0 (s1.queryWords st)))

/-- The stream doorbells and the intake read. An intake doorbell with the next chunk's number queues it; one more than two chunks ahead is
refused and counted at the stream and in FN_STRAY; a result doorbell sets the host's head; a write to a slot that shows no stream
is counted; a good entry that is due goes into the row's berth, without a relay while the pair is not MIRRORED. -/
def Obligations.IntakeAndResultDoorbells : Prop :=
  (∀ (s : State) (f : Fin 13) (n : Fin 1024) (v : Word) (st : Stream), s.barOpen = true → s.enumerated f = true → v.toNat < 65536 →
    s.slot f n = some st → st.adm.source = .host → (∀ q ∈ st.queued, q.seq ≠ v.toNat) →
    ((v.toNat + 65536 - st.nextSeq) % 65536 ≤ 2 → exec (.intakeDbWrite f n v) s = .next (s.modStream n (fun x =>
      { x with queued := x.queued ++ [{ seq := v.toNat, arrived := s.time.now, inBerth := false, endMark := false, valid := 0, tag := 0, bad := 0 }] }))) ∧
    (2 < (v.toNat + 65536 - st.nextSeq) % 65536 → exec (.intakeDbWrite f n v) s = .next
      ((s.modStream n (fun x => { x with refused := satAdd x.refused 1 })).modFn f (fun b => { b with stray := satAdd b.stray 1 })))) ∧
  (∀ (s : State) (f : Fin 13) (n : Fin 1024) (v : Word), s.barOpen = true → s.enumerated f = true → v.toNat < 64 →
    (∀ st, s.slot f n = some st → exec (.resultDbWrite f n v) s =
      .next (s.modStream n (fun x => { x with resHead := v.toNat % 2 ^ st.adm.resultLog2 }))) ∧
    (s.slot f n = none → exec (.resultDbWrite f n v) s = .next (s.modFn f (fun b => { b with stray := satAdd b.stray 1 })))) ∧
  (∀ (s : State) (n : Fin 1024) (e : IntakeEntry) (st : Stream) (q : Chunk), s.stream n = some st → st.nextChunk = some q →
    q.inBerth = false → st.state = .live → st.adm.source = .host → (s.job st.adm.job).state = .running →
    s.nextBoundary (s.job st.adm.job) st.adm.cohort s.time.now ≤ s.time.now + 20000 → s.relays = false →
    e.fault st.nextSeq (s.job st.adm.job).image.shape.n = 0 →
    Completes (.intakeRead n e) s (fun t => ((t.stream n).bind (·.nextChunk)).map (fun x => (x.inBerth, x.valid, x.endMark, x.tag, x.bad)) =
        some (true, e.valid, e.endMark, e.tag, 0) ∧
      t.out = s.out ++ [.dmaRead st.adm.fn (st.adm.intakeBase.toNat + st.nextSeq % 2 ^ st.adm.intakeLog2 *
        entryStride (s.job st.adm.job).image.shape.intakeBytes) (entryStride (s.job st.adm.job).image.shape.intakeBytes)] ∧
      (∀ m, m ≠ n.val → t.stream m = s.stream m) ∧ t.hbm = s.hbm ∧ t.jobs = s.jobs))

/-! ## The life of a chunk (chapter 01) -/

/-- The steps of a chunk. A boundary that is due opens the cohort's next chunk, in which its LIVE streams step, or first runs an interrupted
one; 50 µs after T0, with the relay acknowledged or given up, it computes; a relay that is not acknowledged by then is counted, and the chunk
runs unmirrored; a cohort that is ready commits, is counted and mirrored where the pair mirrors, and with a lock not as found its job is killed
with LOCK_LEFT; a job without cohorts commits its idle task; a committed chunk's records are written while the result rings have room, and its
ended streams are gone; a re-run past its bound is noted with a RETRACTED record per stream, and goes on; an interrupted chunk runs at its
recovery window, each of its streams marked as a replay. -/
def Obligations.ChunkStepsComplete : Prop :=
  (∀ (s : State) (j : Fin 96) (k : Fin 32), (s.job j).state = .running → (s.job j).period ≠ 0 →
    k.val < (s.job j).own ∨ s.streamsIn j k ≠ [] → ((s.job j).cohort k).phase = .idle ∨ ((s.job j).cohort k).phase = .committed →
    ((s.job j).cohort k).recordsDue = false → ((s.job j).cohort k).bk < s.boundary (s.job j) k s.time.now →
    (s.job j).startedAt ≤ s.boundary (s.job j) k s.time.now → s.stepMoves j k (s.boundary (s.job j) k s.time.now) = false →
    (s.recoverable j k = [] → Completes (.cohortBoundary j k) s (fun t => ((t.job j).cohort k).phase = .waitRelay ∧
      ((t.job j).cohort k).bk = s.boundary (s.job j) k s.time.now ∧ (t.job j).image = (s.job j).image ∧
      ((t.job j).cohort k).chunk = ((s.job j).cohort k).chunk + (if ((s.job j).cohort k).bk = 0 then 0 else 1) ∧
      ∀ (i : Nat) (st : Stream), (s.stepping j k).filter (fun e => e.1 == i) = [(i, st)] → s.stream i = some st →
        (t.stream i).map (·.nextSeq) = some ((st.nextSeq + 1) % 65536) ∧ ((t.stream i).bind (·.stepping)).isSome = true)) ∧
    (s.recoverable j k ≠ [] → Completes (.cohortBoundary j k) s (fun t => ((t.job j).cohort k).phase = .computing ∧
      ((t.job j).cohort k).bk = ((s.job j).cohort k).bk ∧
      ∀ i ∈ s.recoverable j k, ((t.stream i).bind (·.stepping)).map (·.replay) = some true))) ∧
  (∀ (s : State) (j : Fin 96) (k : Fin 32), (s.job j).state = .running → ((s.job j).cohort k).phase = .waitRelay →
    ((s.job j).cohort k).relayAcked = true ∨ ((s.job j).cohort k).unmirrored = true → ((s.job j).cohort k).t0 + 50000 ≤ s.time.now →
    Completes (.computeStart j k) s (fun t => ((t.job j).cohort k).phase = .computing ∧ t.streams = s.streams ∧
      ((s.job j).image.kv = [] → t = s.modCohort j k (fun h => { h with phase := .computing })))) ∧
  (∀ (s : State) (j : Fin 96) (k : Fin 32), ((s.job j).cohort k).phase = .waitRelay → ((s.job j).cohort k).relayAcked = false →
    ((s.job j).cohort k).unmirrored = false → ((s.job j).cohort k).t0 + 50000 ≤ s.time.now →
    Completes (.relayAckTimeout j k) s (fun t => ((t.job j).cohort k).unmirrored = true ∧
      t.pair.relayMiss = satAdd s.pair.relayMiss 1 ∧ ((t.job j).cohort k).phase = .waitRelay ∧ t.streams = s.streams ∧ t.cores = s.cores)) ∧
  (∀ (s : State) (j : Fin 96) (k : Fin 32), (s.job j).state = .running → (s.job j).own ≠ 0 → s.commitReady j k = true →
    (s.lockLeft j k = none → Completes (.chunkCommit j k) s (fun t => ((t.job j).cohort k).phase = .committed ∧
      ((t.job j).cohort k).commitAt = s.time.now ∧ ((t.job j).cohort k).chunk = ((s.job j).cohort k).chunk ∧
      (t.teleOf j).committed = (s.teleOf j).committed + 1)) ∧
    (s.lockLeft j k ≠ none → Completes (.chunkCommit j k) s (fun t => (t.job j).state = .free ∧
      (t.part (partOfJob j)).killed = (s.part (partOfJob j)).killed + 1))) ∧
  (∀ (s : State) (j : Fin 96), (s.job j).state = .running → (s.job j).own = 0 → s.idleJob j = true →
    Completes (.chunkCommit j 0) s (fun t => (t.teleOf j).copiedAt = s.time.now ∧ (t.job j).state = .running ∧
      (t.check (partOfJob j)).rate = s.targetRate (partOfJob j))) ∧
  (∀ (s : State) (j : Fin 96) (k : Fin 32) (ps : List (Nat × List Byte)), ((s.job j).cohort k).recordsDue = true →
    Completes (.resultRecordWrite j k ps) s (fun t => ((t.job j).cohort k).recordsDue = false ∧ t.cores = s.cores ∧ t.hbm = s.hbm ∧
      ∀ (i : Nat) (st : Stream) (g : Stepping), (s.streamsIn j k).count i = 1 → s.stream i = some st → st.stepping = some g →
        (g.final = true → t.stream i = none) ∧ (g.final = false → ∃ x, t.stream i = some x ∧ x.stepping = none) ∧
        (s.ringsOpen = true → s.pair.standing = none → ringRoom st.adm.resultLog2 st.resHead st.resNext ≠ 0 →
          ∃ bs : List Byte, bs = (((ps.find? (fun e => e.1 == i)).map (·.2)).getD []).take (s.job j).image.shape.resultBytes ∧
            Out.record st.adm.fn st.resNext (st.resultAddr (s.job j).image.shape.resultBytes)
              (recordWords st.adm.handle St.ok g.seq bs.length g.t0 s.time.now st.resPhase g.replay ((s.job j).cohort k).boundPassed g.gap
                g.final g.tag) bs ∈ t.out))) ∧
  (∀ (s : State) (j : Fin 96) (k : Fin 32), (s.job j).state = .running → ((s.job j).cohort k).phase = .computing →
    ((s.job j).cohort k).rerun = true → ((s.job j).cohort k).boundPassed = false → (s.job j).image.downstream = [] →
    ((s.job j).cohort k).t0 + (s.job j).image.boundUs * 1000 ≤ s.time.now →
    Completes (.retractedRecordAtBound j k) s (fun t => ((t.job j).cohort k).boundPassed = true ∧ ((t.job j).cohort k).phase = .computing ∧
      t.pair.retractLate = satAdd s.pair.retractLate 1 ∧
      ∀ (i : Nat) (st : Stream) (g : Stepping), (s.streamsIn j k).count i = 1 → s.stream i = some st → st.stepping = some g →
        s.ringsOpen = true → s.pair.standing = none → ringRoom st.adm.resultLog2 st.resHead st.resNext ≠ 0 →
          Out.record st.adm.fn st.resNext (st.resultAddr (s.job j).image.shape.resultBytes)
            (recordWords st.adm.handle St.retracted g.seq 0 g.t0 s.time.now st.resPhase g.replay g.rerun g.gap false g.tag) [] ∈ t.out)) ∧
  (∀ (s : State) (j : Fin 96) (k : Fin 32) (at_ : Nat), ((s.job j).cohort k).recovery = some at_ → at_ ≤ s.time.now →
    ((s.job j).cohort k).phase = .idle → s.pair.restoreAt = none → (s.job j).state = .running →
    Completes (.recoveryWindow j k) s (fun t => ((t.job j).cohort k).phase = .computing ∧
      ((t.job j).cohort k).bk = ((s.job j).cohort k).bk ∧
      ((t.job j).cohort k).deadlineAt = some (((t.job j).cohort k).t0 + 2592000) ∧
      ∀ i ∈ s.recoverable j k, ((t.stream i).bind (·.stepping)).map (·.replay) = some true))

/-- SCALE_STEER_SET of a RUNNING job, with fields in range and a tensor that may be steered, waits for the next commit of cohort 0;
TEST_CHECK_RATE sets the device's rate when every live image allows it, and is answered or waits for the commits. -/
def Obligations.CommitSettingsComplete : Prop :=
  (∀ (s s1 : State) (via : Via) (c : Cmd) (v : Steer) (x : TensorSpec), Runs s via 0x0403 (fun _ => true) s1 c →
    c.stray [0xE000FFFF, 0x1F071F00, 0x07FF1FFF] = none →
    v = { enable := bitAt (c.p 0) 31, downEn := bitAt (c.p 0) 30, onDisable := bitAt (c.p 0) 29, targetLog2 := c.f 1 24 5,
          maxSteps := c.f 1 16 3, minSamplesLog2 := c.f 1 8 5, minStreams := c.f 2 16 11, windowChunks := c.f 2 0 13 } →
    8 ≤ v.targetLog2 → v.targetLog2 ≤ 16 → 1 ≤ v.maxSteps → v.maxSteps ≤ 4 → 20 ≤ v.minSamplesLog2 → v.minSamplesLog2 ≤ 30 →
    64 ≤ v.minStreams → v.minStreams ≤ 1024 → 16 ≤ v.windowChunks → v.windowChunks ≤ 4096 →
    (s1.job c.job).state = .running → (s1.job c.job).image.tensors[c.f 0 0 16]? = some x → x.tallies = true → x.bashaba = false →
    x.weight = false → exec (.scaleSteerSet via) s =
      .next (s1.await c (.commit (some (partOfJob c.job)) (some c.job) (some 0) (.steer (c.f 0 0 16) v)))) ∧
  (∀ (s s1 : State) (via : Via) (c : Cmd), Runs s via 0x0702 (fun _ => true) s1 c → c.p 0 ≤ 4 →
    (∀ p < 12, ∀ j ∈ s1.live p, c.p 0 ≤ (s1.job j).image.rateMax) →
    Completes (.testCheckRate via) s (fun t => t.integ.devRate = c.p 0 ∧
      (Replied t c St.ok 0 [] ∨ Waits t c (.commit none none none (.rate (c.p 0)))) ∧ t.cores = s1.cores ∧ t.hbm = s1.hbm ∧
      t.jobs = s1.jobs ∧ t.streams = s1.streams ∧ t.parts = s1.parts))

/-! ## Models and HBM (chapter 10) -/

/-- The model commands complete: a store puts the package in the model store, a load copies the shard's barges with their tags into
the partition's area and answers the counts, a delete removes the model; a digest interval is set, a sweep begins and its command
waits for it, a read answers what the last sweep found. -/
def Obligations.ModelCommandsComplete : Prop :=
  (∀ (s s1 : State) (via : Via) (c : Cmd) (n : Nat) (m : StoredModel), Runs s via 0x0401 (fun c => c.action == 0 || c.action == 3) s1 c →
    c.action = 0 → c.stray [0xC000FFFF, 0x01FFFFFF] = none → s1.stored (c.f 0 0 16) = some (n, m) →
    (s1.part c.partition).configured = true → s1.rangeOwner c.partition (c.f 1 0 25) m.pkg.shard.length = none →
    (s1.part c.partition).hbmGib ≠ 0 → s1.outsideArea c.partition (c.f 1 0 25) m.pkg.shard.length = false → m.damaged = false →
    m.pkg.signed = true → s1.mgmt.selfRefresh = false →
    Completes (.modelInstallLoad via true) s (fun t => Replied t c St.ok 0 m.pkg.words ∧
      { part := c.partition, model := c.f 0 0 16, first := c.f 1 0 25 } ∈ t.loaded ∧
      t.hbm = (s1.copyShard c.partition (c.f 1 0 25) m.pkg (List.range m.pkg.shard.length)).hbm ∧
      t.hbmTags = (s1.copyShard c.partition (c.f 1 0 25) m.pkg (List.range m.pkg.shard.length)).hbmTags ∧
      t.jobs = s1.jobs ∧ t.cores = s1.cores ∧ t.flash = s1.flash)) ∧
  (∀ (s s1 : State) (via : Via) (c : Cmd) (m : ModelPkg), Runs s via 0x0401 (fun c => c.action == 1) s1 c →
    c.stray [0xC000FFFF, 0x01FFFFFF] = none → c.p 4 ≠ 0 → s1.mgmt.selfRefresh = false → 64 < s1.flash.reserve →
    m.usable = true → m.id = c.f 0 0 16 → m.signed = true → m.scalesLegal = true →
    ((s1.flash.models.filter (fun x => x.pkg.id != c.f 0 0 16)).map (·.pkg.len4k)).sum + c.p 4 ≤ storeUnits →
    Completes (.modelInstallStore via m) s (fun t => Replied t c St.ok 0 m.words ∧
      t.flash.models = s1.flash.models.filter (fun x => x.pkg.id != c.f 0 0 16) ++ [{ pkg := { m with len4k := c.p 4 } }] ∧
      t.flash.ledger = s1.flash.ledger ∧ { t with fns := s1.fns, mgmt := s1.mgmt, out := s1.out, flash := s1.flash } = s1)) ∧
  (∀ (s s1 : State) (via : Via) (c : Cmd) (n : Nat) (m : StoredModel), Runs s via 0x0401 (fun c => c.action == 2) s1 c →
    s1.stored (c.f 0 0 16) = some (n, m) → c.stray [0xC000FFFF, 0x01FFFFFF] = none → s1.mgmt.selfRefresh = false →
    (∀ j, (s1.job j).state ≠ .free → (s1.job j).model ≠ c.f 0 0 16) →
    Completes (.modelInstallDelete via) s (fun t => Replied t c St.ok 0 [lo32 (c.f 0 0 16)] ∧
      t.flash.models = s1.flash.models.filter (fun x => x.pkg.id != c.f 0 0 16) ∧
      t.loaded = s1.loaded.filter (fun l => l.model != c.f 0 0 16) ∧
      { t with fns := s1.fns, mgmt := s1.mgmt, out := s1.out, flash := s1.flash, loaded := s1.loaded, parts := s1.parts } = s1)) ∧
  (∀ (s s1 : State) (via : Via) (c : Cmd), Runs s via 0x0402 (fun c => c.action == 0) s1 c → c.stray [0xC000FFFF, 0xFFF] = none →
    s1.digested c.partition (c.f 0 0 16) ≠ [] →
    (c.f 1 0 12 = 0 → Completes (.modelDigestSetInterval via) s (fun t => t.integ.digestMin = none ∧
      Replied t c St.ok 0 (s1.digestWords c.partition (c.f 0 0 16)) ∧
      { t with fns := s1.fns, mgmt := s1.mgmt, out := s1.out, integ := s1.integ } = s1)) ∧
    (10 ≤ c.f 1 0 12 → c.f 1 0 12 ≤ 3600 → Completes (.modelDigestSetInterval via) s (fun t =>
      t.integ.digestMin = some (c.f 1 0 12) ∧ Replied t c St.ok 0 (s1.digestWords c.partition (c.f 0 0 16)) ∧
      { t with fns := s1.fns, mgmt := s1.mgmt, out := s1.out, integ := s1.integ } = s1))) ∧
  (∀ (s s1 : State) (via : Via) (c : Cmd), Runs s via 0x0402 (fun c => c.action == 1) s1 c → c.stray [0xC000FFFF, 0xFFF] = none →
    s1.digested c.partition (c.f 0 0 16) ≠ [] → s1.mgmt.acts = [] →
    Completes (.modelDigestSweep via) s (fun t => Waits t c (.sweep c.partition (c.f 0 0 16)) ∧
      (∀ l ∈ t.loaded, l.model = c.f 0 0 16 → c.partition = 0xFF ∨ l.part = c.partition → l.sweeping = true) ∧
      (t.act actSweep).phase ≠ .idle ∧ t.cores = s1.cores ∧ t.hbm = s1.hbm ∧ t.jobs = s1.jobs)) ∧
  (∀ (s s1 : State) (via : Via) (c : Cmd), Runs s via 0x0402 (fun c => 2 ≤ c.action) s1 c → c.action = 2 →
    c.stray [0xC000FFFF, 0xFFF] = none → s1.digested c.partition (c.f 0 0 16) ≠ [] →
    exec (.modelDigestRead via) s = .next (s1.reply c St.ok 0 (s1.digestWords c.partition (c.f 0 0 16))))

/-- The HBM controllers and the sweep by themselves. A swept segment's SHA-256 is kept, and its shard's sweep ends with its last segment; a
digest other than the reference is noted and, on a chip that no hour after a reload holds suspect, asks for the reload; the twin's digest is
kept and judged against the reference and the chip's own; the hour after a reload ends the suspicion; a refresh slot is counted; a 1 s
interval counts as full load from half the capacity on, the 60th in a row checks every stack's margin, and a stack that fails asks for a
retrain; HBM leaves self-refresh after its 10 µs, and the commands that waited go on. -/
def Obligations.HbmEventsComplete : Prop :=
  (∀ (s : State) (p : Fin 12) (m n : Nat) (l : Loaded) (g : ModelPkg), s.loaded.find? (fun x => x.part == p.val && x.model == m) = some l →
    s.pkgOf m = some g → n < g.segments → l.sweeping = true → l.swept.contains n = false → s.rst.ready = true →
    (s.act actSweep).phase = .running → s.segmentRead l g n = true → Completes (.digestSegmentDone p m n) s (fun t =>
      Table.look ([], 0) t.integ.ownDigest n = (sha256 (s.segmentBytes l (g.segmentBarges n)), s.time.now) ∧
      ((∀ i < g.segments, i ≠ n → l.swept.contains i = true) → ∀ v ∈ t.loaded, v.part = p.val → v.model = m → v.sweeping = false) ∧
      ((∃ i < g.segments, i ≠ n ∧ l.swept.contains i = false) →
        (sha256 (s.segmentBytes l (g.segmentBarges n)) = g.references.getD n [] →
          t.loaded = s.loaded.map (fun v => if v = l then { v with swept := v.swept ++ [n] } else v) ∧
          (s.pair.state = .unbound → { t with integ := s.integ, loaded := s.loaded } = s)) ∧
        (sha256 (s.segmentBytes l (g.segmentBarges n)) ≠ g.references.getD n [] → n ∈ t.integ.digestBad ∧
          (s.integ.chipSuspect = false → s.pair.state = .unbound → (t.act actReload).phase ≠ .idle))))) ∧
  (∀ (s : State) (l : Fin 36) (n at_ : Nat) (d : List Byte), (s.link l).state = .up → s.pair.state ≠ .unbound → s.rst.ready = true →
    Completes (.digestExchange l n d at_) s (fun t => Table.look [] t.integ.twinDigest n = d ∧
      (∀ r, s.loaded.filterMap (fun v => (s.pkgOf v.model).bind (fun m => m.references[n]?)) = [r] →
        (n ∈ t.integ.twinFaults ↔ (Table.look ([], 0) s.integ.ownDigest n).1 = r ∧ d ≠ [] ∧ d ≠ r)) ∧
      (s.integ.digestBad.contains n = false → { t with integ := s.integ } = s))) ∧
  (∀ s : State, s.integ.chipSuspect = true → s.integ.digestBad = [] → s.integ.suspectSince + 3600000000000 ≤ s.time.up →
    exec .chipSuspectExpiry s = .next { s with integ := { s.integ with chipSuspect := false } }) ∧
  (∀ (s : State) (k : Fin 4) (pc : Fin 32), (s.stack k).trained = true → s.mgmt.selfRefresh = false →
    exec (.hbmRefresh k pc) s = .next (s.modStack k (fun v => { v with refreshes := Table.upd 0 v.refreshes pc (· + 1) }))) ∧
  (∀ (s : State) (minus plus : List Bool), s.rst.ready = true → max s.rst.readyUp s.integ.intervalAt + 1000000000 ≤ s.time.up →
    (s.integ.granted < fullLoadBytes → exec (.fullLoadInterval minus plus) s =
      .next { s with integ := { s.integ with fullLoad := 0, granted := 0, intervalAt := s.time.up } }) ∧
    (fullLoadBytes ≤ s.integ.granted → s.integ.fullLoad < 59 → exec (.fullLoadInterval minus plus) s =
      .next { s with integ := { s.integ with fullLoad := s.integ.fullLoad + 1, granted := 0, intervalAt := s.time.up } }) ∧
    (fullLoadBytes ≤ s.integ.granted → 59 ≤ s.integ.fullLoad → Completes (.fullLoadInterval minus plus) s (fun t =>
      t.integ.fullLoad = s.integ.fullLoad + 1 ∧ t.integ.granted = 0 ∧ t.integ.intervalAt = s.time.up ∧ t.hbm = s.hbm ∧ t.cores = s.cores ∧
      ∀ k < 4, ((s.stack k).margin ≠ 0 → (t.stack k).margin = (s.stack k).margin) ∧
        ((s.stack k).margin = 0 → (∀ pc < 32, minus.getD (32 * k + pc) true = true ∧ plus.getD (32 * k + pc) true = true) → (t.stack k).margin = 1) ∧
        ((s.stack k).margin = 0 → (∃ pc < 32, minus.getD (32 * k + pc) true = false ∨ plus.getD (32 * k + pc) true = false) →
          (t.stack k).margin = 2 ∧ (t.act (actRetrain k)).phase ≠ .idle)))) ∧
  (∀ (s : State) (at_ : Nat), s.mgmt.exitAt = some at_ → at_ ≤ s.time.up → Completes .hbmSelfRefreshExit s (fun t =>
    t.mgmt.selfRefresh = false ∧ t.mgmt.exitAt = none ∧ (∀ w ∈ s.waits, w.kind = .exit 0 → w.cmd ∈ t.accepted) ∧
    (∀ w ∈ t.waits, w.kind ≠ .exit 0) ∧ { t with mgmt := s.mgmt, accepted := s.accepted, waits := s.waits } = s))

/-! ## Wharves (chapter 13) -/

/-- The wharf commands complete: WHARF_CONFIG of a stopped wharf stores the five words; WHARF_ARM arms the named wharves, and makes a
STANDBY one wait for the shared clocks; WHARF_START and WHARF_STOP mark the wharves and wait for the edge or the opening;
WHARF_REF_SELECT sets the nominals and the source of stopped wharves at once; STREAM_BIND_WHARF waits for the commit. -/
def Obligations.WharfCommandsComplete : Prop :=
  (∀ (s s1 : State) (via : Via) (c : Cmd), Runs s via 0x0501 (fun _ => true) s1 c → s1.wharfBad c = none →
    (s1.wharf (c.f 0 0 4)).state = .stopped →
    Completes (.wharfConfig via) s (fun t => Replied t c St.ok 0 [BitVec.ofNat 32 (c.f 0 0 4)] ∧
      t.wharf (c.f 0 0 4) = { s1.wharf (c.f 0 0 4) with
        cfg := storedCfg (BitVec.ofNat 32 (c.p 1)), clk := BitVec.ofNat 32 (c.p 2 + c.f 2 30 2 * 2 ^ 28),
        frac := BitVec.ofNat 32 (c.p 3), rxMask := BitVec.ofNat 32 (c.p 4), txMask := BitVec.ofNat 32 (c.p 5) } ∧
      (∀ n, n ≠ c.f 0 0 4 → t.wharf n = s1.wharf n) ∧
      { t with fns := s1.fns, mgmt := s1.mgmt, out := s1.out, wharves := s1.wharves } = s1)) ∧
  (∀ (s s1 : State) (via : Via) (c : Cmd), Runs s via 0x0502 (fun _ => true) s1 c → c.p 0 < 1024 → c.p 0 ≠ 0 →
    (∀ n ∈ maskWharves (c.p 0), (s1.wharf n).state = .stopped ∧ bitAt (s1.wharf n).cfg.toNat 31 = true) →
    (∀ n ∈ maskWharves (c.p 0), ∀ m ∈ maskWharves (c.p 0), (s1.wharf n).refCur = (s1.wharf m).refCur) →
    Completes (.wharfArm via) s (fun t => Replied t c St.ok 0 [] ∧ (∀ n ∈ maskWharves (c.p 0),
      (t.wharf n).state = (if (s1.wharf n).role = 2 then .standby else .armed) ∧ (t.wharf n).hiZ = true ∧ (t.wharf n).frames = 0 ∧
      (t.wharf n).trigPin = false) ∧ (∀ n, n ∉ maskWharves (c.p 0) → t.wharf n = s1.wharf n) ∧
      { t with fns := s1.fns, mgmt := s1.mgmt, out := s1.out, wharves := s1.wharves } = s1)) ∧
  (∀ (s s1 : State) (via : Via) (c : Cmd) (n : Nat), Runs s via 0x0503 (fun _ => true) s1 c → n < 10 → (s1.wharf n).state = .armed →
    Completes (.wharfStart via) s (fun t => t.wharf n = { s1.wharf n with startPending := true } ∧
      Waits t c (.wharfStart ((List.range 10).filter (fun m => (s1.wharf m).state == .armed))) ∧
      { t with waits := s1.waits, wharves := s1.wharves } = s1)) ∧
  (∀ (s s1 : State) (via : Via) (c : Cmd), Runs s via 0x0504 (fun _ => true) s1 c → c.p 0 < 1024 → c.p 0 ≠ 0 →
    (∀ n ∈ maskWharves (c.p 0), (s1.wharf n).state = .running ∧ s1.bindings n 1024 = []) →
    Completes (.wharfStop via) s (fun t => (∀ n ∈ maskWharves (c.p 0), t.wharf n = { s1.wharf n with stopping := true }) ∧
      Waits t c (.wharfStop (maskWharves (c.p 0))) ∧ t.hbm = s1.hbm ∧ t.cores = s1.cores)) ∧
  (∀ (s s1 : State) (via : Via) (c : Cmd), Runs s via 0x0505 (fun _ => true) s1 c → (∀ n < 10, (s1.wharf n).state = .stopped) →
    (c.p 0 &&& 0xFFFFFECC = 0 → bitAt (c.p 0) 8 = true → c.p 1 = 0 → Completes (.wharfRefSelect via) s (fun t =>
      Replied t c St.ok 0 [] ∧ (t.ref 0).nom = c.f 0 0 2 ∧ (t.ref 1).nom = c.f 0 4 2 ∧ (t.ref 0).state = (s1.ref 0).state ∧
      { t with fns := s1.fns, mgmt := s1.mgmt, out := s1.out, refs := s1.refs } = s1)) ∧
    (c.p 0 = 0 → c.p 1 < 0x20400 → 0x20000 ≤ c.p 1 → Completes (.wharfRefSelect via) s (fun t => Replied t c St.ok 0 [] ∧
      (∀ n ∈ maskWharves (c.p 1 - 0x20000), (t.wharf n).refCur = 2) ∧ (∀ n, n ∉ maskWharves (c.p 1 - 0x20000) → t.wharf n = s1.wharf n) ∧
      (t.ref 0).nom = (s1.ref 0).nom ∧ (t.ref 1).nom = (s1.ref 1).nom))) ∧
  (∀ (s s1 : State) (via : Via) (c : Cmd) (st : Stream), Runs s via 0x0305 (fun _ => true) s1 c → s1.twinCarries (c.p 0) = false →
    s1.knownPair (c.p 0) = true → s1.openHandle (c.p 0) = some st → st.adm.source ≠ .link →
    (c.p 1 = 0 → c.p 2 = 0 → (s1.wharf 0).state ≠ .stopped → exec (.streamBindWharf via) s = .next (s1.await c
      (.commit (some (partOfJob st.adm.job)) (some st.adm.job) (some st.adm.cohort) (.bind (handleIndex (c.p 0)) none)))) ∧
    (c.p 1 < 10 * 2 ^ 24 → c.p 1 % 2 ^ 24 = 0 → 0 < c.p 2 → c.p 2 ≤ 32 → (s1.wharf (c.p 1 / 2 ^ 24)).state ≠ .stopped →
      c.p 2 ≤ maskChannels (s1.wharf (c.p 1 / 2 ^ 24)).txMask → s1.bindings (c.p 1 / 2 ^ 24) (handleIndex (c.p 0)) = [] →
      (s1.wharf (c.p 1 / 2 ^ 24)).rate * (s1.job st.adm.job).image.shape.periodMs % 1000 = 0 →
      exec (.streamBindWharf via) s = .next (s1.await c
        (.commit (some (partOfJob st.adm.job)) (some st.adm.job) (some st.adm.cohort) (.bind (handleIndex (c.p 0))
          (some { wharf := c.p 1 / 2 ^ 24, rxFirst := 0, rxCount := 0, txFirst := 0, txCount := c.p 2 }))))))

/-- What the wharves' pins and clocks do. A trigger edge marks the armed wharves that wait for it; a reference's edge starts the marked
wharves that run from it and answers WHARF_START with its time; a received frame counts and enters the cohorts' buffers, as zeros on an
overrun; at a boundary a chunk one frame short repeats its newest frame and is counted, one shorter is filled with zero frames as a gap, and a
wharf that makes no frames closes nothing; an opening stops a stopping wharf, releases the outputs of a chip that stands down, and otherwise
changes the source and sends one frame; a STANDBY wharf notes the opening of the shared lines; a wharf whose bit clock reads back wrong stops with
CONTEND; a takeover's STANDBY wharf drives at its opening; a planned handover swaps the roles. -/
def Obligations.WharfEventsComplete : Prop :=
  (∀ s : State, Completes .wharfTrigEdge s (fun t =>
    (∀ n, (s.wharf n).state = .armed → (s.wharf n).trigPin = true → t.wharf n = { s.wharf n with startPending := true }) ∧
    (∀ n, s.wharf n ≠ {} → (s.wharf n).state ≠ .armed ∨ (s.wharf n).trigPin = false → t.wharf n = s.wharf n) ∧
    { t with wharves := s.wharves } = s)) ∧
  (∀ (s : State) (r : Fin 3), Completes (.wharfStartEdge r) s (fun t => t.hbm = s.hbm ∧ t.cores = s.cores ∧ t.refs = s.refs ∧
    (∀ n < 10, (s.wharf n).state = .armed → (s.wharf n).startPending = true → (s.wharf n).refCur = r.val → (t.wharf n).state = .running ∧
      (t.wharf n).openAt = s.time.now + 16 * 10 ^ 9 / s.fAref (s.wharf n).refCur (s.wharf n).synNom ∧ (t.wharf n).frames = 0 ∧
      (t.wharf n).startPending = false) ∧
    (∀ n, (s.wharf n).state ≠ .armed ∨ (s.wharf n).startPending = false ∨ (s.wharf n).refCur ≠ r.val → t.wharf n = s.wharf n) ∧
    (∀ w ∈ s.waits, ∀ ns, w.kind = .wharfStart ns → ns ≠ [] →
      (∀ n ∈ ns, n < 10 ∧ (s.wharf n).state = .armed ∧ (s.wharf n).startPending = true ∧ (s.wharf n).refCur = r.val) →
      Replied t w.cmd St.ok 0 [lo32 s.time.now, hi32 s.time.now]))) ∧
  (∀ (s : State) (n : Fin 10) (x : List (List Byte)) (o : Bool),
    (s.wharf n).state = .standby ∨ ((s.wharf n).state = .running ∧ (s.wharf n).openAt ≤ s.time.now) →
    Completes (.frameComplete n x o) s (fun t => (t.wharf n).frames = (s.wharf n).frames + 1 ∧
      (t.wharf n).rxOverrun = (if o then satAdd (s.wharf n).rxOverrun 1 else (s.wharf n).rxOverrun) ∧
      (t.wharf n).lastClose = some (s.time.now - s.spillNs (s.wharf n)) ∧ t.cores = s.cores ∧
      ∀ (key : Nat) (b : SlipBuf), ((s.wharf n).bufs.map (·.1)).count key = 1 → Table.look {} (s.wharf n).bufs key = b →
        b.frames.length + 1 < b.n → Table.look {} (t.wharf n).bufs key =
          { b with frames := b.frames ++ [if o then (s.wharf n).zeroRx else (s.wharf n).rxFrame x], gap := b.gap || o })) ∧
  (∀ (s : State) (n : Fin 10) (j : Fin 96) (k : Fin 32) (b : SlipBuf), Table.look {} (s.wharf n).bufs (bufKey j k) = b → b.periodNs ≠ 0 →
    b.b ≤ s.time.now →
    Completes (.wharfBoundary n j k) s (fun t => t.cores = s.cores ∧
      Table.look {} (t.wharf n).bufs (bufKey j k) =
        { b with frames := [], dropped := false, gap := false, b := s.nextBoundary (s.job j) k b.b } ∧
      ((s.wharf n).state = .running ∨ (s.wharf n).state = .standby →
        (b.frames.length + 1 = b.n → b.frames ≠ [] → (t.wharf n).slipRep = satAdd (s.wharf n).slipRep 1 ∧
          (s.streamsIn j k ≠ [] → ∃ c ∈ (t.wharf n).closed, c.job = j.val ∧ c.cohort = k.val ∧ c.gap = b.gap ∧
            c.frames = b.frames ++ [b.frames.getLastD []])) ∧
        (b.frames.length + 1 ≠ b.n ∨ b.frames = [] → (t.wharf n).slipRep = (s.wharf n).slipRep ∧
          (s.streamsIn j k ≠ [] → ∃ c ∈ (t.wharf n).closed, c.job = j.val ∧ c.cohort = k.val ∧ c.gap = true ∧
            c.frames = List.replicate (b.n - b.frames.length) (s.wharf n).zeroRx ++ b.frames))))) ∧
  (∀ (s : State) (n : Fin 10), (s.wharf n).state = .running → (s.wharf n).openAt ≤ s.time.now →
    ((s.wharf n).stopping = true → Completes (.txFrameOpening n) s (fun t => (t.wharf n).state = .stopped ∧ (t.wharf n).hiZ = true ∧
      t.hbm = s.hbm ∧ t.cores = s.cores)) ∧
    ((s.wharf n).stopping = false → s.pair.standing ≠ none → (s.wharf n).hiZ = false → Completes (.txFrameOpening n) s (fun t =>
      (t.wharf n).hiZ = true ∧ (t.wharf n).state = (if (s.wharf n).role = 1 then .standby else .running) ∧ t.cores = s.cores)) ∧
    ((s.wharf n).stopping = false → s.pair.standing = none ∨ (s.wharf n).hiZ = true → Completes (.txFrameOpening n) s (fun t =>
      (t.wharf n).refNext = none ∧ (t.wharf n).state = .running ∧ t.cores = s.cores ∧
      (∀ src kind, (s.wharf n).refNext = some (src, kind) → src < 3 → (s.ref (s.wharf n).refCur).nom < 4 → (t.wharf n).refCur = src) ∧
      ((s.wharf n).hiZ = false → (s.wharf n).refNext = none → ∃ f,
        t.out = s.out ++ [.txFrame n f ((s.wharf n).doutBits f).1 (s.wharf n).fsyncBits] ∧
        ((s.wharf n).tx = [] → f = (List.range (maskChannels (s.wharf n).txMask)).map
          (fun _ => List.replicate ((s.wharf n).frame.word / 8) (0 : Byte))) ∧ { t with wharves := s.wharves, out := s.out } = s)))) ∧
  (∀ (s : State) (n : Fin 10), (s.wharf n).state = .standby →
    ((s.wharf n).stopping = true → Completes (.txFrameOpening n) s (fun t => (t.wharf n).state = .stopped ∧ (t.wharf n).hiZ = true)) ∧
    ((s.wharf n).stopping = false → Completes (.txFrameOpening n) s (fun t => (t.wharf n).sharedAt = some s.time.up ∧
      (t.wharf n).state = .standby ∧ (t.wharf n).refNext = none))) ∧
  (∀ (s : State) (n : Fin 10), (s.wharf n).drives = true → (s.wharf n).role ≠ 2 →
    Completes (.bclkContend n) s (fun t => (t.wharf n).state = .stopped ∧ (t.wharf n).hiZ = true ∧ (t.wharf n).contend = true ∧
      t.hbm = s.hbm ∧ t.cores = s.cores ∧ (s.pair.standing = none → t.streams = s.streams))) ∧
  (∀ (s : State) (n : Fin 10), (s.wharf n).enabling = true → (s.wharf n).state = .standby →
    exec (.wharfOutputEnable n) s = .next (s.modWharf n (fun w =>
      { w.setRole 1 with state := .running, hiZ := false, enabling := false }))) ∧
  (∀ (s : State) (n : Fin 10) (h : Nat), (s.wharf n).swapAt = some h → h ≤ s.time.now →
    ((s.wharf n).role = 1 → exec (.wharfRoleSwap n) s = .next (s.setWharf n
      { (s.wharf n).setRole 2 with state := .standby, hiZ := true, swapAt := none })) ∧
    ((s.wharf n).role = 2 → (s.wharf n).state = .standby → exec (.wharfRoleSwap n) s = .next (s.setWharf n
      { (s.wharf n).setRole 1 with state := .running, hiZ := false, swapAt := none })))

/-! ## Pairs (chapter 12) -/

/-- The pair commands complete: PAIR_BIND of an unbound chip takes the twin and raises EPOCH by one; PAIR_MIRROR_START of a BOUND chip
makes it SYNCING and waits for MIRRORED; PAIR_HANDOVER either way plans the handover at least 1 ms ahead (log entry 67) and waits for it; PAIR_STATUS
answers the pair's words; PAIR_UNBIND discards the mirror. -/
def Obligations.PairCommandsComplete : Prop :=
  (∀ (s s1 : State) (via : Via) (c : Cmd), Runs s via 0x0601 (fun _ => true) s1 c → c.p 0 < 2048 → s1.bindable (c.p 0) false = true →
    s1.bindReady (c.p 0) false = true → s1.pair.state = .unbound →
    Completes (.pairBind via) s (fun t => t.pair.state = .bound ∧ t.pair.twinChip = c.p 0 ∧ t.pair.epoch = s1.pair.epoch + 1 ∧
      t.pair.spare = false ∧ Replied t c St.ok 0 [BitVec.ofNat 32 (s1.pair.epoch + 1).toNat] ∧
      { t with fns := s1.fns, mgmt := s1.mgmt, out := s1.out, pair := s1.pair } = s1)) ∧
  (∀ (s s1 : State) (via : Via) (c : Cmd), Runs s via 0x0602 (fun _ => true) s1 c → s1.pair.state = .bound → s1.pair.twinState = .bound →
    s1.mgmt.acts = [] → s1.mgmt.selfRefresh = false →
    Completes (.pairMirrorStart via) s (fun t => t.pair.state = .syncing ∧ t.pair.mirrorSyncing = true ∧ Waits t c .mirror ∧
      t.jobs = s1.jobs ∧ t.cores = s1.cores ∧ t.hbm = s1.hbm ∧ t.streams = s1.streams)) ∧
  (∀ (s s1 : State) (via : Via) (c : Cmd), Runs s via 0x0603 (fun c => !bitAt (c.p 0) 0) s1 c → c.p 0 = 0 → s1.pair.state = .mirrored →
    s1.quiet < 100000 → s1.pair.restoreAt = none → s1.pair.standing = none → s1.pair.handover = none → s1.mgmt.acts = [] →
    Completes (.pairHandoverGive via) s (fun t =>
      t.pair.handover.map (fun h => (h.give, h.moving)) = some (true, s1.movable true (c.p 1)) ∧
      (∀ h ∈ t.pair.handover, s1.time.now + 1000000 ≤ h.at_) ∧ Waits t c .handover ∧
      { t with waits := s1.waits, pair := s1.pair, mgmt := s1.mgmt, free := s1.free } = s1)) ∧
  (∀ (s s1 : State) (via : Via) (c : Cmd), Runs s via 0x0603 (fun c => bitAt (c.p 0) 0) s1 c → c.p 0 = 1 → s1.pair.state = .solo →
    s1.pair.twinState = .yielded → s1.quiet < 100000 → s1.pair.restoreAt = none → s1.pair.standing = none →
    s1.pair.handover = none → s1.mgmt.acts = [] →
    Completes (.pairHandoverReturn via) s (fun t =>
      t.pair.handover.map (fun h => (h.give, h.moving)) = some (false, s1.movable false (c.p 1)) ∧
      (∀ h ∈ t.pair.handover, s1.time.now + 1000000 ≤ h.at_) ∧ Waits t c .handover ∧
      { t with waits := s1.waits, pair := s1.pair, mgmt := s1.mgmt, free := s1.free } = s1)) ∧
  (∀ (s s1 : State) (via : Via) (c : Cmd), Runs s via 0x0604 (fun _ => true) s1 c →
    exec (.pairStatus via) s = .next (s1.reply c St.ok 0 s1.pairWords)) ∧
  (∀ (s s1 : State) (via : Via) (c : Cmd), Runs s via 0x0605 (fun _ => true) s1 c →
    s1.pair.state = .bound ∨ s1.pair.state = .unmirrored ∨ s1.pair.state = .yielded →
    Completes (.pairUnbind via) s (fun t => t.pair.state = .unbound ∧ t.pair.mirror = [] ∧ t.pair.handover = none ∧
      Replied t c St.ok 0 [] ∧ { t with fns := s1.fns, mgmt := s1.mgmt, out := s1.out, pair := s1.pair } = s1))

/-- Heartbeats and witness messages. A heartbeat of the bound twin on an UP twin link starts the quiet time afresh and gives the epoch;
sending one toggles TWIN_HB_OUT and reads it back, and of a spare's chip sends pings instead; an edge on TWIN_HB_IN starts the quiet time
afresh; after 100 µs of quiet the witness is pinged; a ping for this chip at the twin's epoch is echoed, and counted at another; an echo in time
shows the witness; pings and echoes for another chip go on; a ping without an echo for 40 µs is given up. -/
def Obligations.HeartbeatsAndWitness : Prop :=
  (∀ (s : State) (l : Fin 36) (st epoch seq at_ : Nat), s.hears l = true → 32 ≤ l.val → s.pair.state ≠ .unbound → s.pair.state ≠ .fenced →
    s.pair.spare = false → Completes (.heartbeat l st epoch s.pair.twinChip seq at_) s (fun t => t.pair.aliveAt = s.time.up ∧
      t.pair.twinEpoch = some epoch ∧ (t.link l).heartbeat = some s.time.up ∧
      (s.pair.state = .bound → st = 1 → t.pair.twinState = .bound ∧ t.pair.state = .bound ∧ { t with pair := s.pair, links := s.links } = s))) ∧
  (∀ (s : State) (b : Bool), s.beats = true →
    (s.pair.spare = false → Completes (.heartbeatSend b) s (fun t => Out.heartbeatWire (!s.pair.wire) ∈ t.out ∧
      t.pair.wire = !s.pair.wire ∧ t.pair.hbOutOk = (b == !s.pair.wire) ∧ t.cores = s.cores ∧ t.hbm = s.hbm ∧
      (s.pair.state ≠ .unbound → t.pair.hbSeq = s.pair.hbSeq + 1) ∧
      (s.pair.state = .unbound → t.out = s.out ++ [.heartbeatWire (!s.pair.wire)] ∧ { t with pair := s.pair, out := s.out } = s))) ∧
    (s.pair.spare = true → Completes (.heartbeatSend b) s (fun t => t.pair.wire = s.pair.wire ∧ t.cores = s.cores ∧ t.hbm = s.hbm ∧
      t.pair.pingSeq = s.pair.pingSeq + BitVec.ofNat 16 ((s.witnessRoutes.take 1).length + s.toTwin.length)))) ∧
  (∀ s : State, s.rst.ready = true → Completes .twinHbInEdge s (fun t => t.pair.hbInAt = some s.time.up ∧
    (s.pair.spare = false → t.pair.aliveAt = s.time.up) ∧ t.pair.state = s.pair.state ∧ { t with pair := s.pair } = s)) ∧
  (∀ s : State, s.watches = true → s.pair.isolated = false → s.pair.pinged = false → s.pair.spare = false → 100000 ≤ s.quiet →
    Completes .quietWitnessPing s (fun t => t.pair.pinged = true ∧ t.pair.state = s.pair.state ∧
      t.pair.pingSeq = s.pair.pingSeq + BitVec.ofNat 16 s.witnessRoutes.length ∧ t.cores = s.cores ∧ t.hbm = s.hbm ∧ t.jobs = s.jobs)) ∧
  (∀ (s : State) (l : Fin 36) (route epoch sender seq target at_ : Nat), s.hears l = true →
    (target ≠ s.time.chip → exec (.witnessPing l route epoch sender seq target at_) s =
      .next (s.forward target [.ping route epoch sender seq target at_])) ∧
    (target = s.time.chip → s.pair.spare = false ∨ sender ≠ s.pair.twinChip → s.pair.isolated = false → s.pair.state ≠ .fenced →
      (s.epochOk epoch = true → exec (.witnessPing l route epoch sender seq target at_) s = .next (s.sendOn l
        [.echo route s.pair.state.code s.pair.epoch.toNat s.time.chip seq sender at_])) ∧
      (s.epochOk epoch = false → exec (.witnessPing l route epoch sender seq target at_) s = .next s.stale))) ∧
  (∀ (s : State) (l : Fin 36) (route st epoch sender seq target at_ : Nat), s.hears l = true →
    (target ≠ s.time.chip → exec (.witnessEcho l route st epoch sender seq target at_) s =
      .next (s.forward target [.echo route st epoch sender seq target at_])) ∧
    (target = s.time.chip → s.pair.spare = false → (route, seq, at_) ∈ s.pair.pings → s.time.now ≤ at_ + 40000 →
      Completes (.witnessEcho l route st epoch sender seq target at_) s (fun t => t.pair.echoed = true ∧ t.pair.witnessOk = true ∧
        (route, seq, at_) ∉ t.pair.pings ∧ { t with pair := s.pair } = s))) ∧
  (∀ (s : State) (r : Fin 2) (p : Nat × Nat × Nat), p ∈ s.pair.pings → p.1 = r.val → p.2.2 + 40000 < s.time.now →
    Completes (.witnessTimeout r) s (fun t => p ∉ t.pair.pings ∧ t.pair.witnessOk = false ∧ { t with pair := s.pair } = s))

/-- What pairs decide (R442). A chip whose twin's links and wire are alive is content; a dead wire is reported once; a chip whose links
alone are dead, or that a witness or a shared clock tells that the twin lives, ends MIRRORED; one that has heard nothing of its twin for 200 µs
takes its streams over and is SOLO; an isolated chip, or one whose own ports report the fault, fences. A restore whose reads are done ends; a
failed self-check fences; the handover time moves the cohorts that may move, and ends the handover with its last one, or takes a YIELDED
chip's cohorts back; an UNMIRRORED chip whose links are back for 1 s starts SYNCING. -/
def Obligations.PairDecisionsComplete : Prop :=
  (∀ (s : State) (b : Bool), s.watches = true →
    (s.pair.isolated = true → exec (.twinDecision b) s = .next s.fence) ∧
    (b = true → (∀ l ∈ twinLinks, (s.link l).state ≠ .up) → s.wireAlive = false → exec (.twinDecision b) s = .next s.fence) ∧
    (s.pair.isolated = false → (b = true → ∃ l ∈ twinLinks, (s.link l).state = .up) → 
      (s.twinLinksAlive = true → s.wireAlive = true → exec (.twinDecision b) s = .next { s with pair := { s.pair with decided := 0 } }) ∧
      (s.twinLinksAlive = true → s.wireAlive = false → s.pair.decided ≠ 3 → Completes (.twinDecision b) s (fun t =>
        t.pair.decided = 3 ∧ t.pair.state = s.pair.state ∧ t.streams = s.streams ∧ t.jobs = s.jobs)) ∧
      (s.twinLinksAlive = false → s.wireAlive = true ∨ s.pair.echoed = true ∨ s.sharedClocks = true → s.pair.state = .mirrored →
        s.pair.decided < 3 → Completes (.twinDecision b) s (fun t => t.pair.state = .unmirrored ∧ 4 ≤ t.pair.decided ∧
          t.streams = s.streams ∧ t.jobs = s.jobs)) ∧
      (s.twinLinksAlive = false → s.wireAlive = false → s.pair.echoed = false → s.sharedClocks = false → 200000 ≤ s.quiet →
        s.pair.state.takes = true → Completes (.twinDecision b) s (fun t => t.pair.state = .solo ∧
          t.pair.takeovers = satAdd s.pair.takeovers 1 ∧ t.pair.lastTakeover = BitVec.ofNat 64 s.time.now ∧
          t.pair.restoreAt = some s.time.up)))) ∧
  (∀ s : State, s.pair.restoreAt ≠ none → s.restoreRead = true → Completes .restoreComplete s (fun t => t.pair.restoreAt = none ∧
    t.pair.mirror = [] ∧ t.pair.state = s.pair.state)) ∧
  (∀ (s : State) (c : SelfCheck), s.rst.ready = true → s.rst.quiesce = none → (c = .pad → s.pair.pad.contains false = true) →
    Completes (.selfCheckFail c) s (fun t => (s.pair.state ≠ .fenced → t.pair.isolated = true) ∧
      (s.pair.state ≠ .unbound → t.pair.state = .fenced) ∧
      (s.pair.state ≠ .unbound → s.pair.state ≠ .fenced → t.pair.fences = satAdd s.pair.fences 1) ∧
      t.cores = s.cores ∧ t.hbm = s.hbm ∧ t.jobs = s.jobs ∧ t.streams = s.streams)) ∧
  (∀ (s : State) (h : Handover), s.pair.handover = some h → h.at_ ≤ s.time.now → s.watches = true →
    (s.pair.state ≠ .yielded → (∀ e ∈ h.moving, s.mayMove e = true) → Completes .handoverTime s (fun t => t.pair.handover = none ∧
      ∀ w ∈ s.waits, w.kind = .handover → Replied t w.cmd St.ok 0 [lo32 h.at_, hi32 h.at_])) ∧
    (s.pair.state ≠ .yielded → h.moving.filter (fun e => !s.mayMove e) ≠ [] → Completes .handoverTime s (fun t =>
      t.pair.handover = some { h with moving := h.moving.filter (fun e => !s.mayMove e) } ∧ t.pair.state = s.pair.state ∧
      t.jobs = s.jobs ∧ t.hbm = s.hbm)) ∧
    (s.pair.state = .yielded → s.mayTakeBack = true → Completes .handoverTime s (fun t => t.pair.state = .mirrored ∧
      t.pair.handover = none))) ∧
  (∀ (s : State) (at_ : Nat), s.pair.state = .unmirrored → s.noteLinks.pair.linksUpSince = some at_ → at_ + 1000000000 ≤ s.time.up →
    (s.act actRemirror).phase = .granted ∨ (s.act actRemirror).phase = .running →
    Completes .remirrorStart s (fun t => t.pair.state = .syncing ∧ (t.act actRemirror).phase = .running ∧ t.jobs = s.jobs ∧
      t.hbm = s.hbm ∧ t.streams = s.streams))

/-! ## Links (chapter 11) -/

/-- Transfers on a link. A RUN to this chip opens its run, or opens it again; one that its pound does not take makes the transfer bad; one to
another chip goes on. A good barge of the open run is kept until the COMMIT, one of pair traffic goes into the mirror area, one with a wrong CRC
makes the transfer bad. The COMMIT of a whole transfer makes its bytes and tags visible on the core, and then applies its signal; a mirror's
COMMIT makes each line's entry current. -/
def Obligations.TransfersArrive : Prop :=
  (∀ (s : State) (l : Fin 36) (r : Run) (core : Nat) (p : Plane), s.hears l = true → r.dest = .plane core p →
    (r.destChip ≠ s.time.chip → exec (.runMessage l r) s =
      .next ((s.modLink l (·.openRun { run := r, bad := false })).forward r.destChip [.run r])) ∧
    (r.destChip = s.time.chip → s.runFault r = none → Completes (.runMessage l r) s (fun t =>
      (t.link l).run r.vc = some ((((s.link l).open_ ++ ((s.link l).run r.vc).toList).find? (fun u =>
        u.run.xfer == r.xfer && u.run.dest == r.dest && u.run.vc == r.vc)).getD { run := r, bad := false }) ∧
      t.cores = s.cores ∧ t.hbm = s.hbm ∧ (r.retain = false → t.jobs = s.jobs))) ∧
    (r.destChip = s.time.chip → s.runFault r ≠ none → Completes (.runMessage l r) s (fun t =>
      (∃ u, (t.link l).run r.vc = some u ∧ (u.run.srcChip = r.srcChip → u.bad = true)) ∧ t.cores = s.cores ∧ t.hbm = s.hbm ∧
        t.jobs = s.jobs))) ∧
  (∀ (s : State) (l : Fin 36) (vc : Fin 4) (bs : List Byte) (g : Tag) (u : Transfer), s.hears l = true →
    (s.link l).run vc = some u → u.bad = false →
    (s.transits u.run = true → exec (.bargeReceive l vc u.run.xfer bs g) s =
      .next ((s.freeCredit l vc 1).forward u.run.destChip [.barge vc u.run.xfer bs g])) ∧
    (s.transits u.run = false → crc32c bs = g.crc → u.got.length < u.run.barges →
      Completes (.bargeReceive l vc u.run.xfer bs g) s (fun t => (t.link l).run vc = some { u with got := u.got ++ [(bs, g)] } ∧
        Table.look 0 (t.link l).freed vc = Table.look 0 (s.link l).freed vc + 1 ∧
        (u.run.dest.ofPair = false → { t with links := s.links } = s) ∧
        (u.run.dest.ofPair = true → t.hbm = s.hbm.writeN (s.pairAddr u.run u.got.length) bs ∧ t.cores = s.cores))) ∧
    (s.transits u.run = false → crc32c bs ≠ g.crc → Completes (.bargeReceive l vc u.run.xfer bs g) s (fun t =>
      (t.link l).run vc = some { u with bad := true } ∧ t.cores = s.cores ∧ t.hbm = s.hbm))) ∧
  (∀ (s : State) (l : Fin 36) (vc x parts : Nat) (u : Transfer) (core : Nat) (p : Plane), s.hears l = true →
    (s.link l).transfers.find? (fun t => t.run.xfer == x && t.run.vc == vc && t.parts == 0) = some u → u.run.dest = .plane core p →
    u.run.destChip = s.time.chip → u.bad = false → u.run.barges ≤ u.got.length →
    Completes (.commitMessage l (.transfer vc x parts none)) s (fun t => t.cores = (s.landPart u).cores ∧ t.hbm = s.hbm ∧
      t.jobs = s.jobs ∧ (parts = 1 → ∀ g : Signal, g.core < 24 →
        exec (.commitMessage l (.transfer vc x parts (some g))) s = .next (t.remoteSignals g.core [g])))) ∧
  (∀ (s : State) (l : Fin 36) (e cohort chunk : Nat) (m : MirrorLine), s.hears l = true → s.epochOk e = true →
    (s.link l).current = [] → (s.link l).open_ = [] → cohort ≠ 0x3F →
    Completes (.commitMessage l (.mirror e cohort chunk [m])) s (fun t => (t.mirrorEntry m.index).valid = true ∧
      (t.mirrorEntry m.index).cur = !(s.mirrorEntry m.index).cur ∧ (t.mirrorEntry m.index).mirrorSeq = m.stream.lastSeq ∧
      (t.mirrorEntry m.index).heldAt = s.time.now ∧ (t.mirrorEntry m.index).applyPend = false ∧
      Table.look 0 t.pair.twinChunks (m.stream.adm.job * 64 + cohort) = chunk ∧ t.cores = s.cores ∧ t.jobs = s.jobs))

/-- Signals, credits and replay on a link. A remote signal adds to the lock it names; one that breaks its range is held to the end of the
cycle, with the others of that cycle; one that the lock does not take is a stray. Credits come back up to their full number, a waiting barge
leaves on the one that it lacked, and freed credits are returned when due; a NACK sends five flits again; a released flit is counted; an uncorrectable
codeword is counted, the first and second failures with a NACK, and the third takes the link down; an UP link that fails is MARKED_OUT, or FAILED with a retrain
asked for when it is a twin link. -/
def Obligations.LinkControlCompletes : Prop :=
  (∀ (s : State) (l : Fin 36) (vc : Fin 4) (dest : Nat) (g : Signal), s.hears l = true →
    (dest ≠ s.time.chip → exec (.signalMessage l vc dest g) s =
      .next ((if vc.val = 2 then s.freeCredit l 2 1 else s).forward dest [.signal vc dest g])) ∧
    (dest = s.time.chip → g.core < 24 → ((s.core g.core).lock g.lock).takesRemote = true →
      let held := (s.core g.core).overflows.filter (fun o => o.lock == g.lock)
      let fill := if g.kind = 1 then g.amount else 0
      let drain := if g.kind = 2 then g.amount else 0
      let k := ((s.core g.core).lock g.lock).add (fill + (held.map (·.fill)).sum) (drain + (held.map (·.drain)).sum)
      (k.inRange = true → exec (.signalMessage l vc dest g) s = .next ((if vc.val = 2 then s.freeCredit l 2 1 else s).modCore g.core
        (fun c => { c.setLock g.lock k with overflows := c.overflows.filter (fun o => o.lock != g.lock) }))) ∧
      (k.inRange = false → exec (.signalMessage l vc dest g) s = .next ((if vc.val = 2 then s.freeCredit l 2 1 else s).modCore g.core
        (fun c => { c with overflows := c.overflows ++
          [{ lock := g.lock, fill := fill, drain := drain, job := ((s.core g.core).lock g.lock).owner }] })))) ∧
    (dest = s.time.chip → g.core < 24 → ((s.core g.core).lock g.lock).takesRemote = false →
      Completes (.signalMessage l vc dest g) s (fun t => (t.core g.core).locks = (s.core g.core).locks ∧
        (t.core g.core).lockStray = satAdd (s.core g.core).lockStray 1 ∧ t.jobs = s.jobs ∧ t.hbm = s.hbm))) ∧
  (∀ (s : State) (l : Fin 36) (a b c d : Nat), s.hears l = true → (s.link l).egress = [] →
    (∀ n < 24, ∀ x ∈ (s.core n).linkSends, x.link ≠ l.val) →
    Completes (.creditMessage l a b c d) s (fun t => (t.link l).credits 0 = min 32 ((s.link l).credits 0 + a) ∧
      (t.link l).credits 1 = min 32 ((s.link l).credits 1 + b) ∧ (t.link l).credits 2 = min 64 ((s.link l).credits 2 + c) ∧
      (t.link l).credits 3 = min 4 ((s.link l).credits 3 + d) ∧ { t with links := s.links, out := s.out } = s)) ∧
  (∀ (s : State) (l : Fin 36) (x : Nat) (bs : List Byte) (g : Tag), s.hears l = true → l.val < 32 → s.maySend 0 = true →
    (s.link l).egress = [.barge 0 x bs g] → (s.link l).credits 0 = 0 → (s.link l).txRun = some (0, x) →
    Completes (.creditMessage l 1 0 0 0) s (fun t => (t.link l).egress = [] ∧ (t.link l).credits 0 = 0 ∧
      Out.link l (.barge 0 x bs g) ∈ t.out ∧ { t with links := s.links, out := s.out } = s)) ∧
  (∀ (s : State) (l : Fin 36), s.hears l = true →
    let n (vc : Nat) := Table.look 0 (s.link l).freed vc
    0 < n 0 + n 1 + n 2 + n 3 → (∃ at_, (s.link l).freedAt = some at_ ∧ at_ + 200 ≤ s.time.up) ∨ 8 ≤ n 0 + n 1 + n 2 + n 3 →
    exec (.linkCreditReturn l) s = .next ((s.modLink l (fun k => { k with freed := [], freedAt := none })).sendOn l
      [.credit (n 0) (n 1) (n 2) (n 3)])) ∧
  (∀ (s : State) (l : Fin 36) (q : Nat), (s.link l).state = .up → Completes (.nack l q) s (fun t =>
    (t.link l).txFlits = ((s.link l).filled s.time.up).txFlits + 5 ∧ (t.link l).txCount = ((s.link l).filled s.time.up).txCount ∧
    (((s.link l).filled s.time.up).resend q).length = 5 ∧ Out.resent l q (((s.link l).filled s.time.up).resend q) ∈ t.out ∧
    { t with links := s.links, out := s.out } = s)) ∧
  (∀ (s : State) (l : Fin 36) (d n : Nat), (s.link l).state = .up → d + 300 ≤ s.time.up → Completes (.flitRelease l d n) s (fun t =>
    (t.link l).rxFlits = (s.link l).rxFlits + 1 ∧ (t.link l).rxSeq = ((s.link l).rxSeq + 1) % 65536 ∧
    (t.link l).fecCorr = satAdd (s.link l).fecCorr n ∧ { t with links := s.links } = s)) ∧
  (∀ (s : State) (l : Fin 36) (q : Nat), (s.link l).state = .up → (Table.look 0 (s.link l).fails q = 0 →
      Completes (.codewordUncorrectable l q) s (fun t => (t.link l).fecUncorr = satAdd (s.link l).fecUncorr 1 ∧
        (t.link l).replay = satAdd (s.link l).replay 1 ∧ Table.look 0 (t.link l).fails q = 1 ∧ (t.link l).state = .up ∧
        ((s.link l).egress = [] → s.maySend 4 = true → Out.link l (.nack q) ∈ t.out) ∧ t.cores = s.cores ∧ t.hbm = s.hbm)) ∧
    (Table.look 0 (s.link l).fails q = 1 →
      Completes (.codewordUncorrectable l q) s (fun t => (t.link l).fecUncorr = satAdd (s.link l).fecUncorr 1 ∧
        (t.link l).replay = (s.link l).replay ∧ (t.link l).replayLate = satAdd (s.link l).replayLate 1 ∧
        Table.look 0 (t.link l).fails q = 2 ∧ (t.link l).state = .up ∧ t.cores = s.cores ∧ t.hbm = s.hbm)) ∧
    (2 ≤ Table.look 0 (s.link l).fails q → Completes (.codewordUncorrectable l q) s (fun t =>
        (t.link l).state = (if l.val < 32 then .markedOut else .failed) ∧ (t.link l).egress = []))) ∧
  (∀ (s : State) (l : Fin 36), (s.link l).state = .up →
    (l.val < 32 → Completes (.linkFailure l) s (fun t => (t.link l).state = .markedOut ∧ l.val ∈ t.flash.ledger.marked ∧
      (t.link l).egress = [] ∧ t.hbm = s.hbm)) ∧
    (32 ≤ l.val → Completes (.linkFailure l) s (fun t => (t.link l).state = .failed ∧ (t.act (actLink l)).phase ≠ .idle ∧
      (t.link l).egress = [] ∧ t.cores = s.cores ∧ t.hbm = s.hbm)))

/-- Messages about chunks and jobs. A CHUNK_ACK releases what was retained for its chunk; a RETARGET redirects later sends, or takes them
back; the relay's and the mirror's acknowledgements are noted at their cohort; STAND_DOWN takes the streams over; a RETRACT abandons the
chunk that computes with the retracted input, a CHECK_TOKEN is noted; an XFER_FAIL kills the job that sent, which the model reads from the
transfer's number (log entry 50). A message for another chip goes on, and one of another epoch is counted. -/
def Obligations.ChunkMessagesComplete : Prop :=
  (∀ (s : State) (l : Fin 36) (dest a b c d e x : Nat), s.hears l = true → dest ≠ s.time.chip →
    exec (.chunkAck l dest a b c) s = .next ((s.freeCredit l 2 1).forward dest [.chunkAck dest a b c]) ∧
    exec (.retarget l dest a b) s = .next ((s.freeCredit l 2 1).forward dest [.retarget dest a b]) ∧
    exec (.retract l dest a b c d e) s = .next ((s.freeCredit l 2 1).forward dest [.retract dest a b c d e]) ∧
    exec (.checkToken l dest a b c d e) s = .next ((s.freeCredit l 2 1).forward dest [.checkToken dest a b c d e]) ∧
    exec (.xferFail l dest x a) s = .next ((s.freeCredit l 2 1).forward dest [.xferFail dest x a])) ∧
  (∀ (s : State) (l : Fin 36) (src k n : Nat), s.hears l = true → Completes (.chunkAck l s.time.chip src k n) s (fun t =>
    (∀ c < 24, ∀ r ∈ (t.core c).retained, ¬ (r.dest = src ∧ r.cohort = k ∧ r.chunk = n)) ∧ t.hbm = s.hbm ∧ t.jobs = s.jobs)) ∧
  (∀ (s : State) (l : Fin 36) (a b : Nat), s.hears l = true →
    (a ≠ b → Completes (.retarget l s.time.chip a b) s (fun t => t.target a = b ∧ t.hbm = s.hbm ∧ t.jobs = s.jobs ∧
      ∀ c < 24, ∀ r ∈ (t.core c).retained, r.dest ≠ a)) ∧
    (a = b → Completes (.retarget l s.time.chip a b) s (fun t => t.target a = a ∧
      { t with subst := s.subst, links := s.links } = s))) ∧
  (∀ (s : State) (l : Fin 36) (e k n x : Nat), s.hears l = true → s.epochOk e = false →
    exec (.relayAck l e k n) s = .next (s.freeCredit l 2 1).stale ∧ exec (.mirrorAck l e k n) s = .next (s.freeCredit l 2 1).stale ∧
    exec (.standDown l e x) s = .next (s.freeCredit l 2 1).stale) ∧
  (∀ (s : State) (l : Fin 36) (e j k n : Nat), s.hears l = true → s.epochOk e = true → (j, k) ∈ s.runningCohorts →
    let here (x : Nat × Nat) : Prop := x.2 = k ∧ ((s.job x.1).cohort x.2).phase = .waitRelay ∧
      ((s.job x.1).cohort x.2).relayAcked = false ∧ ((s.job x.1).cohort x.2).seq = n
    (here (j, k) → (∀ x ∈ s.runningCohorts, x ≠ (j, k) → here x → ((s.job j).cohort k).bk < ((s.job x.1).cohort x.2).bk) →
      Completes (.relayAck l e k n) s (fun t => ((t.job j).cohort k).relayAcked = true ∧ ((t.job j).cohort k).phase = .waitRelay ∧
        { t with jobs := s.jobs, links := s.links } = s)) ∧
    ((∀ x ∈ s.runningCohorts, ¬ here x) → ((s.job j).cohort k).relayLast = true → ((s.job j).cohort k).upcoming = n →
      (∀ x ∈ s.runningCohorts, x ≠ (j, k) → x.2 = k → ((s.job x.1).cohort x.2).relayLast = false) →
      Completes (.relayAck l e k n) s (fun t => ((t.job j).cohort k).earlyAck = true ∧
        ((t.job j).cohort k).phase = ((s.job j).cohort k).phase ∧ { t with jobs := s.jobs, links := s.links } = s))) ∧
  (∀ (s : State) (l : Fin 36) (e k n : Nat) (m : MirrorSent) (rest : List MirrorSent), s.hears l = true → s.epochOk e = true →
    (k ≠ 0x3F → s.pair.ackOf k n = some (m, rest) → Completes (.mirrorAck l e k n) s (fun t => t.pair.sent = rest ∧
      (∀ x ∈ m.slots, x.2 ∉ Table.look [] t.kvSent x.1) ∧
      (((s.job m.job).cohort m.cohort).seq = n → ((t.job m.job).cohort m.cohort).mirrorDue = none) ∧
      (∀ due, m.due = some due → due < s.time.now → t.pair.mirrorLate = satAdd s.pair.mirrorLate 1) ∧
      ((∀ due, m.due = some due → s.time.now ≤ due) →
        { t with jobs := s.jobs, links := s.links, pair := { t.pair with sent := s.pair.sent }, kvSent := s.kvSent } = s) ∧
      t.cores = s.cores ∧ t.hbm = s.hbm ∧ t.streams = s.streams)) ∧
    (k = 0x3F → s.pair.state = .syncing → s.pair.twinSynced = true → s.pair.twinState ≠ .solo → s.rst.deferred = none →
      Completes (.mirrorAck l e k n) s (fun t => t.pair.state = .mirrored ∧ t.jobs = s.jobs ∧ t.hbm = s.hbm ∧ t.streams = s.streams)) ∧
    (k = 0x3F → s.pair.state ≠ .syncing ∨ s.pair.twinSynced = false → Completes (.mirrorAck l e k n) s (fun t =>
      t.pair.ownSynced = true ∧ { t with pair := s.pair, links := s.links } = s))) ∧
  (∀ (s : State) (l : Fin 36) (e x : Nat), s.hears l = true → s.epochOk e = true →
    s.pair.state = .mirrored ∨ s.pair.state = .unmirrored ∨ s.pair.state = .syncing →
    Completes (.standDown l e x) s (fun t => t.pair.state = .solo ∧ t.pair.twinState = .yielded ∧
      t.pair.takeovers = satAdd s.pair.takeovers 1 ∧ t.pair.lastTakeover = BitVec.ofNat 64 s.time.now)) ∧
  (∀ (s : State) (l : Fin 36) (k n src why d : Nat), s.hears l = true → Completes (.retract l s.time.chip k n src why d) s (fun t =>
    t.pair.retractRx = satAdd s.pair.retractRx 1 ∧ t.pair.state = s.pair.state ∧ t.hbm = s.hbm ∧
    ∀ x ∈ s.runningCohorts, x.2 = k → (n, src) ∈ ((s.job x.1).cohort k).retainedFrom → ((s.job x.1).cohort k).seq = n →
      ((s.job x.1).cohort k).phase = .computing ∨ ((s.job x.1).cohort k).phase = .waitRelay →
      ((s.job x.1).cohort k).abandoned = false → ((t.job x.1).cohort k).abandoned = true ∧ ((t.job x.1).cohort k).rerun = true ∧
        ((t.job x.1).cohort k).retracted = some (why, d, src))) ∧
  (∀ (s : State) (l : Fin 36) (k n src rate x : Nat), s.hears l = true →
    Completes (.checkToken l s.time.chip k n src rate x) s (fun t => t.hbm = s.hbm ∧ t.streams = s.streams ∧
      ∀ y ∈ s.runningCohorts, y.2 = k → (s.job y.1).image.shape.linkFed = true →
        (n, src) ∈ ((t.job y.1).cohort k).tokensHeld ∧ (n, src) ∉ ((t.job y.1).cohort k).tokensDue)) ∧
  (∀ (s : State) (l : Fin 36) (x why : Nat), s.hears l = true → x % 128 < 96 → (s.job (x % 128)).state ≠ .free →
    Completes (.xferFail l s.time.chip x why) s (fun t => (t.job (x % 128)).state = .free))

/-- Link training and the link commands. A step up to the third with its lanes good leads to the next, the third sends the hello; hellos that
both ends accept lead from step 4 to 5, and others to MISWIRED; step 5 records the delay and step 6 brings the link UP; one that is not UP after
80 ms is trained again twice and then FAILED. LINK_TRAIN trains the named links and waits for them, its other actions stop them or
clear MARKED_OUT first; LINK_STATUS answers the link's words; a variant of the route image takes effect, and restarts a chip whose flows
use a link that is out, at once or when its pair is MIRRORED again. -/
def Obligations.LinkTrainingCompletes : Prop :=
  (∀ (s : State) (l : Fin 36) (f : TrainFinding), (s.link l).state = .training → s.rst.ready = true →
    s.time.up ≤ (s.link l).trainAt + 80000000 →
    ((s.link l).step < 3 → f.lanes % 16 = 15 → Completes (.linkTrainingStep l f) s (fun t => (t.link l).step = (s.link l).step + 1 ∧
      (t.link l).lanesOk = 15 ∧ (t.link l).state = .training ∧ { t with links := s.links } = s)) ∧
    ((s.link l).step ≤ 3 → f.lanes % 16 ≠ 15 → exec (.linkTrainingStep l f) s =
      .next (s.modLink l (fun k => { k with lanesOk := f.lanes % 16 }))) ∧
    ((s.link l).step = 3 → f.lanes % 16 = 15 → Completes (.linkTrainingStep l f) s (fun t => (t.link l).step = 4 ∧
      (t.link l).lanesOk = 15 ∧ t.out = s.out ++ [.link l (.hello s.time.chip l ((s.route.map (·.digest)).getD 0))] ∧
      { t with links := s.links, out := s.out } = s)) ∧
    ((s.link l).step = 4 → s.helloOk l f = true → f.peerOk = true → Completes (.linkTrainingStep l f) s (fun t => (t.link l).step = 5 ∧
      (t.link l).peerChip = f.peerChip % 2048 ∧ (t.link l).peerPort = f.peerPort % 64 ∧ { t with links := s.links } = s)) ∧
    ((s.link l).step = 4 → s.helloOk l f = false ∨ f.peerOk = false → Completes (.linkTrainingStep l f) s (fun t =>
      (t.link l).state = .miswired ∧ (t.link l).peerChip = f.peerChip % 2048 ∧ t.cores = s.cores ∧ t.hbm = s.hbm ∧ t.jobs = s.jobs)) ∧
    ((s.link l).step = 5 → Completes (.linkTrainingStep l f) s (fun t => (t.link l).step = 6 ∧ (t.link l).delay = BitVec.ofNat 16 f.delay ∧
      (t.link l).state = .training ∧ { t with links := s.links } = s)) ∧
    (6 ≤ (s.link l).step → Completes (.linkTrainingStep l f) s (fun t => (t.link l).state = .up ∧ (t.link l).credits 0 = 32 ∧
      (t.link l).credits 1 = 32 ∧ (t.link l).credits 2 = 64 ∧ (t.link l).credits 3 = 4 ∧ (t.link l).upAt = s.time.up ∧
      (t.link l).txCount = 0 ∧ (t.link l).rxSeq = 0 ∧ t.cores = s.cores ∧ t.hbm = s.hbm))) ∧
  (∀ (s : State) (l : Fin 36), (s.link l).state = .training → (s.link l).trainAt + 80000000 ≤ s.time.up →
    ((s.link l).tries < 2 → exec (.linkTrainTimeout l) s = .next (s.modLink l (fun k => k.begin s.time.up (k.tries + 1)))) ∧
    (2 ≤ (s.link l).tries → Completes (.linkTrainTimeout l) s (fun t => (t.link l).state = .failed ∧ t.cores = s.cores))) ∧
  (∀ (s s1 : State) (via : Via) (c : Cmd) (n : Nat), Runs s via 0x0611 (fun c => c.action == 0 || c.action == 3) s1 c → n < 32 →
    c.p 0 = s1.time.chip → c.p 0 < 2048 → c.p 1 = 2 ^ n → c.p 2 = 0 → c.p 3 = 0 → c.p 4 = 0 → c.p 5 = 0 → s1.mgmt.acts = [] →
    (s1.link n).state = .down →
    Completes (.linkTrain via none) s (fun t => (t.link n).state = .training ∧ (t.link n).step = 1 ∧ Waits t c (.links [n]) ∧
      t.time.chipValid = true ∧ t.time.chip = c.p 0 ∧ t.cores = s1.cores ∧ t.hbm = s1.hbm ∧ t.jobs = s1.jobs)) ∧
  (∀ (s s1 : State) (via : Via) (c : Cmd) (n : Nat), Runs s via 0x0611 (fun c => c.action == 1) s1 c → n < 32 →
    c.p 0 = 0x40000000 + s1.time.chip → s1.time.chip < 2048 → c.p 1 = 2 ^ n → c.p 2 = 0 → c.p 3 = 0 → c.p 4 = 0 → c.p 5 = 0 →
    (s1.link n).state = .up → s1.linkInUse n = false →
    Completes (.linkTrainStop via none) s (fun t => (t.link n).state = .down ∧ t.cores = s1.cores ∧ t.hbm = s1.hbm ∧
      Replied t c St.ok 0 t.linkWords)) ∧
  (∀ (s s1 : State) (via : Via) (c : Cmd) (n : Nat), Runs s via 0x0611 (fun c => c.action == 2) s1 c → n < 32 →
    c.p 0 = 0x80000000 + s1.time.chip → s1.time.chip < 2048 → c.p 1 = 2 ^ n → c.p 2 = 0 → c.p 3 = 0 → c.p 4 = 0 → c.p 5 = 0 →
    s1.mgmt.acts = [] → (s1.link n).state = .markedOut →
    Completes (.linkTrainClear via none) s (fun t => (t.link n).state = .training ∧ n ∉ t.flash.ledger.marked ∧ Waits t c (.links [n]))) ∧
  (∀ (s s1 : State) (via : Via) (c : Cmd), Runs s via 0x0612 (fun _ => true) s1 c → c.p 0 < 36 →
    exec (.linkStatus via) s = .next (s1.reply c St.ok 0 (s1.link (c.p 0)).words)) ∧
  (∀ (s : State) (r : RouteImage) (v : Nat × List (Nat × List Nat)), s.route = some r → r.variants.find? (fun x => x.1 == v.1) = some v →
    let hit : Prop := ∃ l < 32, (s.link l).state = .markedOut ∧ s.flowsOn l ≠ []
    (¬ hit → exec (.linkVariantSwitch v.1) s = .next { s with route := some { r with routes := v.2 } }) ∧
    (hit → s.aloneWithStreams = true → exec (.linkVariantSwitch v.1) s =
      .next { s with route := some { r with routes := v.2 }, rst := { s.rst with deferred := some .linkVariant } }) ∧
    (hit → s.aloneWithStreams = false → exec (.linkVariantSwitch v.1) s =
      .next (State.warmReset { s with route := some { r with routes := v.2 } } .linkVariant)))

/-- The references: a whole second ends the slip window; the tenth window with edges makes an absent reference NORMAL, and its drift is
that of the counted edges; a NORMAL or DRIFT reference without an edge for 10 µs FAILS, which is counted and sends the wharves
that run from it elsewhere.
Schedule time. A marker is noted with its arrival, and the parent's first one moves the count forward and later ones steer it; markers go out with the
last one received; without a parent for 1 ms LOCKED falls; an edge on TIME_IN steers the master to the nearest whole
second, and TIME_OUT shows each whole second for 1 µs. -/
def Obligations.TimeAndReferenceEvents : Prop :=
  ((∀ s : State, s.slipSec < s.time.now / 1000000000 → Completes .slipLimitWindow s (fun t => t.slipSec = s.time.now / 1000000000 ∧
    (∀ n < 10, (t.wharf n).winDrop = 0 ∧ (t.wharf n).winRep = 0) ∧ t.cores = s.cores ∧ t.hbm = s.hbm ∧ t.refs = s.refs)) ∧
  (∀ (s : State) (e : Nat), s.time.locked = true → e ≠ 0 → (s.ref 1).state = 0 →
    let w : Int := ((e : Int) - nomHz (s.ref 0).nom / 10) * 10000000 / (nomHz (s.ref 0).nom / 10)
    let d := meanDrift (lastN 10 ((s.ref 0).drifts ++ [w]))
    ((s.ref 0).state = 0 → Completes (.refWindow e 0) s (fun t =>
      (t.ref 0).state = (if 9 ≤ (s.ref 0).edgeRun then 1 else 0) ∧ (t.ref 0).drift = d ∧ (t.ref 0).edgeRun = (s.ref 0).edgeRun + 1 ∧
      (t.ref 1).state = 0 ∧ (t.ref 1).edgeRun = 0 ∧ t.wharves = s.wharves ∧ t.cores = s.cores)) ∧
    ((s.ref 0).state = 1 → 500 ≤ d.natAbs → d.natAbs < 2000 → w.natAbs < 10000 → Completes (.refWindow e 0) s (fun t =>
      (t.ref 0).state = 2 ∧ (t.ref 0).events = satAdd (s.ref 0).events 1 ∧ t.wharves = s.wharves ∧ t.cores = s.cores)) ∧
    ((s.ref 0).state = 1 → 2000 ≤ d.natAbs ∨ 10000 ≤ w.natAbs → Completes (.refWindow e 0) s (fun t =>
      (t.ref 0).state = 3 ∧ (t.ref 0).events = satAdd (s.ref 0).events 1 ∧ t.cores = s.cores))) ∧
  (∀ (s : State) (r : Fin 2), s.time.locked = true → (s.ref r).state = 1 ∨ (s.ref r).state = 2 → Completes (.refNoEdge r) s (fun t =>
    (t.ref r).state = 3 ∧ (t.ref r).events = satAdd (s.ref r).events 1 ∧
    (∀ n, (s.wharf n).state ≠ .stopped → (s.wharf n).refCur = r.val → ∃ x, (t.wharf n).refNext = some x ∧ x.1 ≠ r.val) ∧
    t.cores = s.cores ∧ t.hbm = s.hbm))) ∧
  ((∀ (s : State) (l : Fin 36) (x : Nat), s.hears l = true → s.time.master = true →
    Completes (.timeMark l x 0 0) s (fun t => (t.link l).markRx = some (x, s.time.now) ∧ { t with links := s.links } = s)) ∧
  (∀ (s : State) (l : Fin 36) (x echo recv : Nat), s.hears l = true → s.time.master = false → s.time.parent = l.val → echo ≠ 0 →
    let o : Int := (((s.time.now : Int) - x) - ((recv : Int) - echo)) / 2
    (s.time.jumped = true → o.natAbs ≤ 20 → (∀ n < 36, (s.link n).offset.natAbs ≤ 50) →
      Completes (.timeMark l x echo recv) s (fun t => t.time.offset = o ∧ t.time.adjust = -o ∧ t.time.good = min 10 (s.time.good + 1) ∧
        t.time.bad = 0 ∧ t.time.locked = (s.time.locked || decide (9 ≤ s.time.good)) ∧ t.time.now = s.time.now ∧ t.cores = s.cores)) ∧
    (s.time.jumped = false → o < 0 → Completes (.timeMark l x echo recv) s (fun t => t.time.now = s.time.now + o.natAbs ∧
      t.time.jumped = true ∧ t.cores = s.cores ∧ t.hbm = s.hbm))) ∧
  (∀ (s : State) (l : Fin 36), exec (.timeMarkSend l) s = .next (s.sendOn l
    [.timeMark s.time.now (((s.link l).markRx).getD (0, 0)).1 (((s.link l).markRx).getD (0, 0)).2])) ∧
  (∀ (s : State) (at_ : Nat), s.time.noParent = some at_ → at_ + 1000000 ≤ s.time.up → s.time.master = false →
    (∀ p ∈ s.parents, (s.link p).state ≠ .up) →
    exec .noParentTimeout s = .next { s with time := { s.time with locked := false, good := 0 } }) ∧
  (∀ s : State, s.time.master = true → s.time.ppsEn = true → exec .timeInEdge s = .next { s with time := { s.time with
    adjust := (((s.time.now + 500000000) / 1000000000 * 1000000000 : Nat) : Int) - s.time.now } }) ∧
  (∀ s : State, s.time.master = true → s.time.timeOut = false → s.time.now % 1000000000 < 1000 →
    s.time.pulseAt ≠ s.time.now / 1000000000 * 1000000000 →
    Completes .timeOutPulse s (fun t => t.time.timeOut = true ∧ t.out = s.out ++ [.timeOut (s.time.now / 1000000000 * 1000000000)] ∧
      t.time.now = s.time.now ∧ { t with time := s.time, out := s.out } = s)) ∧
  (∀ s : State, s.time.timeOut = true → s.time.pulseAt + 1000 ≤ s.time.now →
    exec .timeOutPulse s = .next { s with time := { s.time with timeOut := false } }))

/-! ## Engine commands (chapters 02 to 07, 10, 11) -/

/-- The matrix engine's loads start when its clock runs and nothing conflicts. ME_LOADW and ME_LOADKV leave their image LOADING in the
shadow set (R91), ME_LOADRS fills the bank's rescale table (R110), ME_CHECK fills the check set; each leaves the accumulators, the
scratchpad's bytes and everything else of the chip as they were. -/
def Obligations.MatrixLoadsStart : Prop :=
  (∀ (s : State) (c : Fin 24) (e : QEntry), AtHead s c 0 0x01 e → MeAwake (s.core c) →
    (meWordsOk e.words (meFlagsAllowed 1) && planeOk e.words 2 false && weightPlaneOk (planeAt e.words 2) && zeroWords e.words 8 8) = true → planePound (s.core c).spad e.job (planeAt e.words 2) false = true →
    (s.core c).me.settle.shadowSet.state = 0 → tagCheck (s.core c).spad (planeAt e.words 2) = none →
    headerOk (readPlane (s.core c).spad (planeAt e.words 2)) (planeAt e.words 2).fmt (mBashaba e.words) = true →
    Completes (.meLoadw c) s (fun t => ∃ r, Started s t c 0 e r ∧ r.claims = 0 ∧ r.nonpre = true ∧ OnlyMe s t c ∧
      (t.core c).me.shadowSet = loadedSet (readPlane (s.core c).spad (planeAt e.words 2)) ∧
      (t.core c).me.acc = (s.core c).me.acc ∧ (t.core c).me.mode = (s.core c).me.mode ∧ (t.core c).me.rescale = (s.core c).me.rescale)) ∧
  (∀ (s : State) (c : Fin 24) (e : QEntry), AtHead s c 0 0x07 e → MeAwake (s.core c) →
    (meWordsOk e.words 0 && planeOk e.words 2 false && planeOk e.words 8 false &&
      bits (dw e.words 14) 30 2 == 0 && bits (dw e.words 14) 9 17 == 0 && bits (dw e.words 14) 26 2 != 3 &&
      decide (kValid e.words ≤ 256) && zeroWords e.words 15 1) = true →
    (planeAt e.words 2).fmt = (if kInt4 e.words then 8 else 7) → (planeAt e.words 2).rowsM1 = 0 → (planeAt e.words 2).skew = 0 →
    (planeAt e.words 2).rowBytes = 256 * kDh e.words / (if kInt4 e.words then 2 else 1) → (planeAt e.words 8).fmt = 1 →
    (planeAt e.words 8).rowsM1 = 0 → (planeAt e.words 8).skew = 0 → (planeAt e.words 8).rowBytes = 256 * kDh e.words / 32 →
    planePound (s.core c).spad e.job (planeAt e.words 2) false = true → planePound (s.core c).spad e.job (planeAt e.words 8) false = true →
    (s.core c).me.settle.shadowSet.state = 0 →
    tagCheckCut (s.core c).spad (planeAt e.words 2) (kValid e.words * kDh e.words / (if kInt4 e.words then 2 else 1)) = none →
    tagCheckCut (s.core c).spad (planeAt e.words 8) (kValid e.words * kDh e.words / 32) = none →
    Completes (.meLoadkv c) s (fun t => ∃ r, Started s t c 0 e r ∧ r.claims = 0 ∧ r.nonpre = true ∧ OnlyMe s t c ∧
      (t.core c).me.shadowSet.state = 1 ∧
      (t.core c).me.shadowSet.kv = some (kOrient e.words, kInt4 e.words, kDh e.words, kValid e.words) ∧
      (t.core c).me.shadowSet.image = readPlane (s.core c).spad (planeAt e.words 2) ∧
      (t.core c).me.shadowSet.kvScales = readPlane (s.core c).spad (planeAt e.words 8) ∧ (t.core c).me.acc = (s.core c).me.acc)) ∧
  (∀ (s : State) (c : Fin 24) (e : QEntry), AtHead s c 0 0x04 e → MeAwake (s.core c) →
    (meWordsOk e.words 0 && planeOk e.words 2 false && (planeAt e.words 2).fmt == 0 && (planeAt e.words 2).rowsM1 == 0 &&
      (planeAt e.words 2).widthM1 == 63 && zeroWords e.words 8 8) = true → planePound (s.core c).spad e.job (planeAt e.words 2) false = true →
    claimConflict (s.core c).running (writeClaim (mBank e.words)) = false → s.claimYields c 0 e.stamp (writeClaim (mBank e.words)) = false →
    tagCheck (s.core c).spad (planeAt e.words 2) = none →
    Completes (.meLoadrs c) s (fun t => ∃ r, Started s t c 0 e r ∧ r.claims = writeClaim (mBank e.words) ∧ OnlyMe s t c ∧
      (t.core c).me.rescale = (s.core c).me.rescale.writeN (mBank e.words * 512) (bytesToWords (readPlane (s.core c).spad (planeAt e.words 2))) ∧
      (t.core c).me.acc = (s.core c).me.acc ∧ (t.core c).me.mode = (s.core c).me.mode)) ∧
  (∀ (s : State) (c : Fin 24) (e : QEntry), AtHead s c 0 0x09 e → MeAwake (s.core c) →
    (meWordsOk (withoutCheck e.words) 36 && mNextw (withoutCheck e.words) && planeOk (withoutCheck e.words) 2 false &&
      actPlaneOk (planeAt (withoutCheck e.words) 2) (mBashaba (withoutCheck e.words)) && planeOk (withoutCheck e.words) 8 false &&
      weightPlaneOk (planeAt (withoutCheck e.words) 8) && decide (2 < (planeAt (withoutCheck e.words) 2).fmt) &&
      decide (2 < (planeAt (withoutCheck e.words) 8).fmt) && bits (dw (withoutCheck e.words) 14) 0 5 == 0 &&
      bits (dw (withoutCheck e.words) 15) 0 5 == 0 && bits (dw e.words 15) 29 3 == 0 &&
      decide (mRow0 (withoutCheck e.words) + (planeAt (withoutCheck e.words) 2).rows ≤ 256)) = true →
    planePound (s.core c).spad (dJob (withoutCheck e.words)) (planeAt (withoutCheck e.words) 2) false = true →
    planePound (s.core c).spad (dJob (withoutCheck e.words)) (planeAt (withoutCheck e.words) 8) false = true →
    (mBashaba (withoutCheck e.words) = false → ((s.core c).spad.pound (planeAt (withoutCheck e.words) 2).pound).allows
      (dJob (withoutCheck e.words)) false (bits (dw (withoutCheck e.words) 14) 0 24 + 8 * (planeAt (withoutCheck e.words) 2).rows) = true) →
    ((blockOf (readPlane (s.core c).spad (planeAt (withoutCheck e.words) 8))).outIdx ≠ [] →
      ((s.core c).spad.pound (planeAt (withoutCheck e.words) 2).pound).allows (dJob (withoutCheck e.words)) false
        (bits (dw (withoutCheck e.words) 15) 0 24 + 32 * (planeAt (withoutCheck e.words) 2).rows) = true) →
    tagCheck (s.core c).spad (planeAt (withoutCheck e.words) 2) = none → tagCheck (s.core c).spad (planeAt (withoutCheck e.words) 8) = none →
    headerOk (readPlane (s.core c).spad (planeAt (withoutCheck e.words) 8)) (planeAt (withoutCheck e.words) 8).fmt
      (mBashaba (withoutCheck e.words)) = true →
    Completes (.meCheck c) s (fun t => ∃ r, Started s t c 0 e r ∧ r.nonpre = true ∧ OnlyMe s t c ∧
      (t.core c).me.checkSet.image = readPlane (s.core c).spad (planeAt (withoutCheck e.words) 8) ∧
      Eff.checkCrc false (dJob (withoutCheck e.words)) (mChkCohort e.words) (mChkId e.words)
        (blockCrc (s.core c).spad (planeAt (withoutCheck e.words) 2)
          (blockOf (readPlane (s.core c).spad (planeAt (withoutCheck e.words) 8))) (withoutCheck e.words)) true ∈ r.effects ∧
      (t.core c).me.acc = (s.core c).me.acc ∧ (t.core c).me.activeSet = (s.core c).me.settle.activeSet))

/-- The matrix engine's other commands. ME_MATMUL computes its accumulator rows from the active set, or from the shadow set that SWAP
makes active, and with NEXTW leaves the next image LOADING in the shadow set; ME_MATMUL_C gives the same accumulators and forms the block CRC; ME_DRAIN writes its plane from the
accumulators and clears them only with CLEAR; ME_ZERO leaves its rows 0 in the mode BASHABA names and no other element changed;
ME_PREWARM starts the wake of a gated engine, and on an awake one restarts the idle count when it commits. -/
def Obligations.MatrixCommandsStart : Prop :=
  (∀ (s : State) (c : Fin 24) (e : QEntry) (act : WeightSet), AtHead s c 0 0x02 e → MatmulReady (s.core c) e.words act →
    s.claimYields c 0 e.stamp (writeClaim (mBank e.words)) = false →
    Completes (.meMatmul c) s (fun t => ∃ r, Started s t c 0 e r ∧ r.claims = writeClaim (mBank e.words) ∧ r.nonpre = true ∧
      OnlyMe s t c ∧ Multiplied (s.core c) e.words act (t.core c).me)) ∧
  (∀ (s : State) (c : Fin 24) (e : QEntry) (act : WeightSet), AtHead s c 0 0x08 e → MatmulReady (s.core c) (withoutCheck e.words) act →
    s.claimYields c 0 e.stamp (writeClaim (mBank e.words)) = false → 2 < (planeAt e.words 2).fmt → (mNextw e.words = true → 2 < (planeAt e.words 8).fmt) → bits (dw e.words 15) 29 3 = 0 →
    Completes (.meMatmulC c) s (fun t => ∃ r, Started s t c 0 e r ∧ r.claims = writeClaim (mBank e.words) ∧ r.nonpre = true ∧
      OnlyMe s t c ∧ Multiplied (s.core c) (withoutCheck e.words) act (t.core c).me ∧
      Eff.checkCrc true e.job (mChkCohort e.words) (mChkId e.words)
        (blockCrc (s.core c).spad (planeAt e.words 2) act.theBlock (withoutCheck e.words)) (act.eligible (planeAt e.words 2).fmt) ∈
          r.effects)) ∧
  (∀ (s : State) (c : Fin 24) (e : QEntry), AtHead s c 0 0x03 e → MeAwake (s.core c) →
    (meWordsOk e.words (meFlagsAllowed 3) && planeOk e.words 2 true && drainPlaneOk (planeAt e.words 2) (mRescale e.words) &&
      zeroWords e.words 8 8 && decide (mRow0 e.words + (planeAt e.words 2).rows ≤ 256)) = true →
    planePound (s.core c).spad e.job (planeAt e.words 2) true = true →
    claimConflict (s.core c).running (readClaim (mBank e.words)) = false → s.claimYields c 0 e.stamp (readClaim (mBank e.words)) = false →
    (∀ r < (planeAt e.words 2).rows, (planeAt e.words 2).fmt = 0x11 → (s.core c).me.int32 (mBank e.words) (mRow0 e.words + r) = true) →
    (∀ r < (planeAt e.words 2).rows, (planeAt e.words 2).fmt ≠ 0x11 → mRescale e.words = false →
      (s.core c).me.int32 (mBank e.words) (mRow0 e.words + r) = false) →
    berthFull (s.core c).spad (planeAt e.words 2) = none →
    Completes (.meDrain c) s (fun t => ∃ r, Started s t c 0 e r ∧ r.claims = readClaim (mBank e.words) ∧ OnlyCore s t c ∧
      (t.core c).spad.bytes = ((s.core c).spad.bytes.writes ((planeAddrs ((s.core c).spad.pound (planeAt e.words 2).pound)
        (planeAt e.words 2)).zip ((List.range (planeAt e.words 2).rows).flatMap (fun r => packElems (planeAt e.words 2).fmt
          (((s.core c).me.readRow (mBank e.words) (mRow0 e.words + r) (mRescale e.words)).map
            (fun w => (drainElem (planeAt e.words 2).fmt w).1)))))) ∧
      (mClear e.words = false → (t.core c).me.acc = (s.core c).me.acc) ∧
      (mClear e.words = true → ∀ r < (planeAt e.words 2).rows, ∀ n < 256,
        (t.core c).me.acc.read (accKey (mBank e.words) (mRow0 e.words + r) n) = 0) ∧ (t.core c).me.mode = (s.core c).me.mode ∧
      { t.core c with queues := (s.core c).queues, running := (s.core c).running, me := (s.core c).me, spad := (s.core c).spad } =
        s.core c)) ∧
  (∀ (s : State) (c : Fin 24) (e : QEntry), AtHead s c 0 0x05 e → MeAwake (s.core c) →
    (meWordsOk e.words (meFlagsAllowed 5) && zeroWords e.words 2 12 && bits (dw e.words 14) 8 24 == 0 && zeroWords e.words 15 1 &&
      decide (mRow0 e.words + (bits (dw e.words 14) 0 8 + 1) ≤ 256)) = true →
    claimConflict (s.core c).running (writeClaim (mBank e.words)) = false → s.claimYields c 0 e.stamp (writeClaim (mBank e.words)) = false →
    Completes (.meZero c) s (fun t => ∃ r, Started s t c 0 e r ∧ r.claims = writeClaim (mBank e.words) ∧ OnlyMe s t c ∧
      (∀ row n, mRow0 e.words ≤ row → row ≤ mRow0 e.words + bits (dw e.words 14) 0 8 → n < 256 →
        (t.core c).me.acc.read (accKey (mBank e.words) row n) = 0 ∧ (t.core c).me.int32 (mBank e.words) row = mBashaba e.words) ∧
      (∀ bank row n, bank < 4 → row < 256 → n < 256 → bank ≠ mBank e.words ∨ row < mRow0 e.words ∨
          mRow0 e.words + bits (dw e.words 14) 0 8 < row →
        (t.core c).me.acc.read (accKey bank row n) = (s.core c).me.acc.read (accKey bank row n) ∧
          (t.core c).me.int32 bank row = (s.core c).me.int32 bank row))) ∧
  (∀ (s : State) (c : Fin 24) (e : QEntry), AtHead s c 0 0x06 e →
    (meWordsOk e.words 0 && zeroWords e.words 2 14) = true → (s.core c).me.waking = false →
    Completes (.mePrewarm c) s (fun t => ∃ r, Started s t c 0 e r ∧ r.claims = 0 ∧ OnlyMe s t c ∧
      ((s.core c).me.gated = true → (t.core c).me.gated = false ∧ (t.core c).me.waking = true ∧ (t.core c).me.wakeAt = s.time.up + 300) ∧
      ((s.core c).me.gated = false → (t.core c).me.gated = false ∧ (t.core c).me.waking = false ∧ Eff.meIdle ∈ r.effects) ∧ (t.core c).me.acc = (s.core c).me.acc))

/-- The vector engine's commands and the gate pipeline's step start. VE_SETT captures K0 for the tile rows it names and changes no
scratchpad byte (R202); VE_LOADFT of a valid flight program puts it in the flight table when it commits (R202, R204); VE_FLIGHT
claims the banks it reads, forms a summary record and writes only where its destination is; GP_STEP claims its banks, writes its rows'
states and counts the rowsteps when it commits; neither changes anything outside its core. -/
def Obligations.VectorAndGateCommandsStart : Prop :=
  (∀ (s : State) (c : Fin 24) (e : QEntry), AtHead s c 2 0x02 e →
    (veWordsOk e.words && zeroWords e.words 2 12 && bits (dw e.words 14) 30 2 == 0 &&
      bits (dw e.words 14) 5 15 == 0 &&
      decide (bits (dw e.words 14) 23 3 + bits (dw e.words 14) 20 3 ≤ 7)) = true →
    Completes (.veSett c) s (fun t => ∃ r ws, Started s t c 2 e r ∧ r.claims = 0 ∧ OnlyVe s t c ∧
      (t.core c).ve.tiles = (s.core c).ve.tiles ∧ (t.core c).ve.fifo = (s.core c).ve.fifo ∧ Eff.tiles ws ∈ r.effects ∧
      (∀ p ∈ ws, p.2 = e.caps.getD 0 0) ∧
      ∀ i j, i ≤ bits (dw e.words 14) 20 3 → j < 256 →
        (tileKey (bits (dw e.words 14) 26 4) (bits (dw e.words 14) 23 3 + i) j, e.caps.getD 0 0) ∈ ws)) ∧
  (∀ (s : State) (c : Fin 24) (e : QEntry), AtHead s c 2 0x03 e →
    (veWordsOk e.words && planeOk e.words 2 false && (planeAt e.words 2).fmt == 0 &&
      (planeAt e.words 2).count == 128 && zeroWords e.words 8 6 && bits (dw e.words 14) 6 26 == 0) = true → veReadBlocked (s.core c) (planeAt e.words 2) = false →
    bits (dw e.words 14) 0 6 < (veRange (s.core c) e.job).2.1 → planePound (s.core c).spad e.job (planeAt e.words 2) false = true →
    tagCheck (s.core c).spad (planeAt e.words 2) = none →
    flightValid (bytesToWords (readPlane (s.core c).spad (planeAt e.words 2))) = true →
    Completes (.veLoadft c) s (fun t => ∃ r, Started s t c 2 e r ∧ OnlyVe s t c ∧ (t.core c).ve.tiles = (s.core c).ve.tiles ∧
      (t.core c).ve.flights = (s.core c).ve.flights ∧
      Eff.flight ((veRange (s.core c) e.job).1 + bits (dw e.words 14) 0 6) (readPlane (s.core c).spad (planeAt e.words 2)) ∈ r.effects)) ∧
  (∀ (s : State) (c : Fin 24) (e : QEntry) (fb : List Byte), AtHead s c 2 0x01 e →
    (veWordsOk e.words && bits (dw e.words 14) 27 5 == 0 && (vSrcKind e.words == 2 || vePlaneOk e.words 2 (vSrcKind e.words) false) &&
      (if vDstKind e.words = 3 then planeReservedOk e.words 8 && fmtListed (planeAt e.words 8).fmt && (planeAt e.words 8).tagmode != 3
        else vePlaneOk e.words 8 (vDstKind e.words) true) &&
      (planeAt e.words 2).fmt != 0 && (vSrcKind e.words != 2 || (decide (vRow0 e.words + (planeAt e.words 2).rowsM1 ≤ 255) &&
        ((planeAt e.words 2).fmt == 0x10 || (planeAt e.words 2).fmt == 0x11))) &&
      (!vSumRows e.words || decide ((planeAt e.words 2).rows ≤ 1024))) = true →
    bits (dw e.words 14) 20 6 < (veRange (s.core c) e.job).2.1 →
    entryComing (s.core c) ((veRange (s.core c) e.job).1 + bits (dw e.words 14) 20 6) = false →
    OTable.at? (s.core c).ve.flights ((veRange (s.core c) e.job).1 + bits (dw e.words 14) 20 6) = some fb →
    (flightValid (bytesToWords fb) && flightSpans e.words (bytesToWords fb) && flightFits e.words (bytesToWords fb) && flightPounds (s.core c) e.words (bytesToWords fb)) = true →
    (vDstKind e.words == 3 || (planeAt e.words 8).fmt == (lastCvt (bytesToWords fb)).getD 0x10) = true →
    (vSrcKind e.words = 2 → ∀ r < (planeAt e.words 2).rows, (s.core c).me.int32 (vBank e.words) (vRow0 e.words + r) =
      ((planeAt e.words 2).fmt == 0x11)) →
    (bitAt (dw (bytesToWords fb) 17) 31 = true → vRowBase e.words + (planeAt e.words 2).rowsM1 ≤ 1023) →
    (vOverlap e.words = true → veCycles (s.core c) e.words (bytesToWords fb) ≤ 60000) →
    claimConflict (s.core c).running (banksRead e.words (bytesToWords fb)) = false →
    s.claimYields c 2 e.stamp (banksRead e.words (bytesToWords fb)) = false → veBlocked (s.core c) e.words (bytesToWords fb) = false →
    (∀ f rc, finalCvt e.words (bytesToWords fb) = some f → fmtNarrow f = true →
      rc = readScaleRec (s.core c).spad (bits (dw (bytesToWords fb) 17) 28 3) (recAt e.words (bytesToWords fb)) (vN (vSrcKind e.words) (planeAt e.words 2)) →
      rc.fmt = f ∧ rc.channels = vN (vSrcKind e.words) (planeAt e.words 2) ∧ (rc.bashaba = true → rc.fmt = 7)) →
    (vSrcKind e.words = 0 → tagCheck (s.core c).spad (planeAt e.words 2) = none) →
    (vDstKind e.words = 0 → berthFull (s.core c).spad (planeAt e.words 8) = none) →
    Completes (.veFlight c) s (fun t => ∃ r, Started s t c 2 e r ∧ r.claims = banksRead e.words (bytesToWords fb) ∧ OnlyCore s t c ∧
      (t.core c).me = (s.core c).me ∧ (t.core c).gp = (s.core c).gp ∧ (t.core c).ve.tiles = (s.core c).ve.tiles ∧
      (t.core c).ve.fifo = (s.core c).ve.fifo ∧ (∃ ws, Eff.summary ws ∈ r.effects ∧ ws.length = 16) ∧
      (vDstKind e.words ≠ 0 → (t.core c).spad = (s.core c).spad) ∧ (vDstKind e.words ≠ 1 → (t.core c).ve.cache = (s.core c).ve.cache))) ∧
  (∀ (s : State) (c : Fin 24) (e : QEntry), AtHead s c 1 0x01 e → gpLegal (s.core c).spad e.words = true →
    (((s.core c).spad.pound (bits (dw e.words 14) 26 3)).allows e.job false (bits (dw e.words 14) 0 16 * 256 + 256) &&
      ctxOk e.words (ctxWords (s.core c).spad e.words) (planeAt e.words 2).rows &&
      planePound (s.core c).spad e.job (planeAt e.words 2) false && planePound (s.core c).spad e.job (planeAt e.words 8) true &&
      ((s.core c).spad.pound (bits (dw e.words 15) 28 3)).allows e.job false (bits (dw e.words 15) 0 24 + 256) &&
      (!gInit e.words || ((s.core c).spad.pound (bits (dw (ctxWords (s.core c).spad e.words) 1) 28 3)).allows e.job false
        (bits (dw (ctxWords (s.core c).spad e.words) 1) 0 24 + (if gCell e.words = 0 then 2048 else 1024))) &&
      ((if gCell e.words = 0 ∧ gPeep e.words then 3072 else if gCell e.words = 4 then 2048 else 0) == 0 ||
        ((s.core c).spad.pound (bits (dw (ctxWords (s.core c).spad e.words) 2) 28 3)).allows e.job false
          (bits (dw (ctxWords (s.core c).spad e.words) 2) 0 24 +
            (if gCell e.words = 0 ∧ gPeep e.words then 3072 else if gCell e.words = 4 then 2048 else 0))) &&
      (!gHout e.words || planePound (s.core c).spad e.job (planeAt (ctxWords (s.core c).spad e.words) 8) true) &&
      (!gPlane e.words || planePound (s.core c).spad e.job (planeAt (ctxWords (s.core c).spad e.words) 16) false)) = true →
    (gSame e.words = true → gpCycles (s.core c) e.words (ctxWords (s.core c).spad e.words) ≤ 60000) →
    claimConflict (s.core c).running (gpClaims e.words) = false → s.claimYields c 1 e.stamp (gpClaims e.words) = false →
    gpBlocked (s.core c) e.words (ctxWords (s.core c).spad e.words) = false →
    (gPlane e.words = false → gRescale e.words = false → ∀ q < cellSlots (gCell e.words), ∀ r < (planeAt e.words 2).rows,
      (s.core c).me.int32 (gSlotBank e.words q) (gRow0 e.words + r) = false) →
    tagCheck (s.core c).spad (planeAt e.words 2) = none → berthFull (s.core c).spad (planeAt e.words 8) = none →
    (gPlane e.words = true → tagCheck (s.core c).spad (planeAt (ctxWords (s.core c).spad e.words) 16) = none) →
    (gHout e.words = true → berthFull (s.core c).spad (planeAt (ctxWords (s.core c).spad e.words) 8) = none) →
    Completes (.gpStep c) s (fun t => ∃ r, Started s t c 1 e r ∧ r.claims = gpClaims e.words ∧ OnlyCore s t c ∧
      (t.core c).me = (s.core c).me ∧ (t.core c).ve = (s.core c).ve ∧
      (let row := gpRow (s.core c) e.words (ctxWords (s.core c).spad e.words)
       let out := writePlane (s.core c).spad (planeAt e.words 8) ((List.range (planeAt e.words 2).rows).flatMap (fun r => (row r).state))
       let h := planeAt (ctxWords (s.core c).spad e.words) 8
       (t.core c).spad = if gHout e.words then
         writePlane out h ((List.range (planeAt e.words 2).rows).flatMap (fun r => packElems h.fmt (row r).hout)) else out) ∧
      (∃ n m, Eff.gpCounts n m (((List.range (planeAt e.words 2).rows).map
        (gpRow (s.core c) e.words (ctxWords (s.core c).spad e.words))).countP (·.stepped)) ∈ r.effects)))

/-- The data mover's local and remote commands start. DM_COPY and DM_FILL write their destination plane (R76, R77); DM_FETCH_CORE
writes it from another core's plane; DM_SEND_CORE takes a credit for its first barge, which waits at the NoC weir (R80, R82), and writes no
scratchpad. No other core and no byte of HBM changes. -/
def Obligations.DataMoverCommandsStart : Prop :=
  (∀ (s : State) (c : Fin 24) (e : QEntry), AtHead s c 3 0x01 e →
    (dmWordsOk e.words && planeOk e.words 2 false && planeOk e.words 8 true && zeroWords e.words 14 2 &&
      (planeAt e.words 2).count == (planeAt e.words 8).count && planePound (s.core c).spad e.job (planeAt e.words 2) false &&
      planePound (s.core c).spad e.job (planeAt e.words 8) true) = true →
    planesMeet (s.core c).spad (planeAt e.words 2) (planeAt e.words 8) = false →
    tagCheck (s.core c).spad (planeAt e.words 2) = none → berthFull (s.core c).spad (planeAt e.words 8) = none →
    ((planeAt e.words 2).tagmode = 0 ∨ (planeAt e.words 8).tagmode = 0 ∨ copyCrcOk (s.core c).spad (planeAt e.words 2)
      (newTags (writePlane (s.core c).spad (planeAt e.words 8) (readPlane (s.core c).spad (planeAt e.words 2))) (planeAt e.words 8)
        (sourceTensors (s.core c).spad (planeAt e.words 2))) = true) →
    Completes (.dmCopy c) s (fun t => ∃ r, Started s t c 3 e r ∧ r.claims = 0 ∧ OnlySpad s t c ∧ (t.core c).spad.bytes =
      (writePlane (s.core c).spad (planeAt e.words 8) (readPlane (s.core c).spad (planeAt e.words 2))).bytes ∧
      r.dest = planeAddrs ((s.core c).spad.pound (planeAt e.words 8).pound) (planeAt e.words 8))) ∧
  (∀ (s : State) (c : Fin 24) (e : QEntry), AtHead s c 3 0x02 e →
    (dmWordsOk e.words && zeroWords e.words 2 6 && planeOk e.words 8 true && zeroWords e.words 15 1 &&
      planePound (s.core c).spad e.job (planeAt e.words 8) true) = true →
    berthFull (s.core c).spad (planeAt e.words 8) = none →
    Completes (.dmFill c) s (fun t => ∃ r, Started s t c 3 e r ∧ r.claims = 0 ∧ OnlySpad s t c ∧
      (t.core c).spad.bytes = (writePlane (s.core c).spad (planeAt e.words 8) ((List.range (planeAt e.words 8).count).map
        (fun i => (leBytes 4 (dw e.words 14)).getD (i % 4) 0))).bytes ∧
      (∀ a, a ∉ planeAddrs ((s.core c).spad.pound (planeAt e.words 8).pound) (planeAt e.words 8) →
        (t.core c).spad.bytes.read a = (s.core c).spad.bytes.read a))) ∧
  (∀ (s : State) (c : Fin 24) (e : QEntry), AtHead s c 3 0x04 e → remoteOk c e.words = true →
    planePound (s.core c).spad e.job (planeAt e.words 8) true = true →
    ((s.core (dw e.words 14)).spad.pound (planeAt e.words 2).pound).allowsRemote false (planeAt e.words 2).endb = true →
    tagCheck (s.core (dw e.words 14)).spad (planeAt e.words 2).flat = none → berthFull (s.core c).spad (planeAt e.words 8) = none →
    ((planeAt e.words 2).tagmode = 0 ∨ (planeAt e.words 8).tagmode = 0 ∨ copyCrcOk (s.core (dw e.words 14)).spad (planeAt e.words 2).flat
      (newTags (writePlane (s.core c).spad (planeAt e.words 8) (readPlane (s.core (dw e.words 14)).spad (planeAt e.words 2).flat))
        (planeAt e.words 8) (sourceTensors (s.core (dw e.words 14)).spad (planeAt e.words 2).flat)) = true) →
    Completes (.dmFetchCore c) s (fun t => ∃ r, Started s t c 3 e r ∧ (t.core c).spad.bytes =
        (writePlane (s.core c).spad (planeAt e.words 8) (readPlane (s.core (dw e.words 14)).spad (planeAt e.words 2).flat)).bytes ∧
      (t.part (partOfCore c)).reqs = (s.part (partOfCore c)).reqs ++ bargeReqs 2 e.job c 0 e.stamp 0 s.time.up (s.job e.job).bulk
        ((sendBarges (readPlane (s.core (dw e.words 14)).spad (planeAt e.words 2).flat)).map List.length) ∧
      { t with cores := s.cores, parts := s.parts } = s ∧ (∀ n, n ≠ c.val → t.core n = s.core n) ∧
      { t.core c with queues := (s.core c).queues, running := (s.core c).running, spad := (s.core c).spad } = s.core c)) ∧
  (∀ (s : State) (c : Fin 24) (e : QEntry) (k : Nat) (cr : Credit), AtHead s c 3 0x03 e → remoteOk c e.words = true →
    planePound (s.core c).spad e.job (planeAt e.words 2) false = true →
    creditFor (s.core c).spad e.job (dw e.words 14) (planeAt e.words 8).pound = some (k, cr) → 0 < cr.avail → (s.core c).sends = [] →
    tagCheck (s.core c).spad (planeAt e.words 2) = none → ((planeAt e.words 2).tagmode = 0 ∨ (planeAt e.words 8).tagmode = 0 ∨
      copyCrcOk (s.core c).spad (planeAt e.words 2) (newTags (writePlane (s.core (dw e.words 14)).spad (planeAt e.words 8).flat
        (readPlane (s.core c).spad (planeAt e.words 2))) (planeAt e.words 8).flat (sourceTensors (s.core c).spad (planeAt e.words 2))) = true) →
    Completes (.dmSendCore c) s (fun t => ∃ r, Started s t c 3 e r ∧
      (t.core c).spad = (s.core c).spad.takeCredit k ∧ (t.core c).sends = [⟨e.stamp, e.job, dw e.words 14, k,
        (planeAt e.words 8).flat, sendBarges (readPlane (s.core c).spad (planeAt e.words 2)), true⟩] ∧
      (t.part (partOfCore c)).reqs = (s.part (partOfCore c)).reqs ++ bargeReqs 2 e.job c 0 e.stamp 0 s.time.up (s.job e.job).bulk
        [min 4096 (readPlane (s.core c).spad (planeAt e.words 2)).length] ∧
      { t with cores := s.cores, parts := s.parts } = s ∧ (∀ n, n ≠ c.val → t.core n = s.core n)))

/-- The data mover's HBM commands and its link send start. DM_HBM_READ asks the read weir for each barge, which is read and written at its
grant; DM_HBM_WRITE leaves HBM as it is and keeps for its commit a store that lies within the barges it names; DM_LINK_SEND over routed
links that are UP asks the Elcor weir for each of its barges on L0 to L31, and its COMMIT goes to each link at its own commit. -/
def Obligations.HbmAndLinkCommandsStart : Prop :=
  (∀ (s : State) (c : Fin 24) (e : QEntry) (ce : List Nat), AtHead s c 3 0x08 e → hbmOk e.words 8 2 false = true →
    planePound (s.core c).spad e.job (planeAt e.words 8).flat true = true →
    s.outsideArea (partOfCore c) (hBarge e.words) ((planeAt e.words 8).count / 4096) = false →
    berthFull (s.core c).spad (planeAt e.words 8).flat = none →
    Completes (.dmHbmRead c ce) s (fun t => ∃ r, Started s t c 3 e r ∧
      r.dest = planeAddrs ((s.core c).spad.pound (planeAt e.words 8).pound) (planeAt e.words 8).flat ∧ (t.core c).spad = (s.core c).spad ∧
      (t.part (partOfCore c)).reqs = (s.part (partOfCore c)).reqs ++ bargeReqs 0 e.job c 0 e.stamp 0 s.time.up (s.job e.job).bulk
        ((List.range ((planeAt e.words 8).count / 4096)).map (fun j =>
          s.storedLen (planeAt e.words 8).flat ((s.part (partOfCore c)).firstBarge + hBarge e.words + j))) ∧
      (∀ n, n ≠ c.val → t.core n = s.core n) ∧ t.hbm = s.hbm ∧ t.hbmTags = s.hbmTags ∧ t.jobs = s.jobs ∧
      (ce = [] → { t with cores := s.cores, parts := s.parts } = s))) ∧
  (∀ (s : State) (c : Fin 24) (e : QEntry), AtHead s c 3 0x09 e → hbmOk e.words 2 8 true = true →
    planePound (s.core c).spad e.job (planeAt e.words 2).flat false = true →
    s.outsideArea (partOfCore c) (hBarge e.words) ((planeAt e.words 2).count / 4096) = false →
    s.inRanges (partOfCore c) (hBarge e.words) ((planeAt e.words 2).count / 4096) = false →
    tagCheck (s.core c).spad (planeAt e.words 2).flat = none →
    Completes (.dmHbmWrite c) s (fun t => ∃ r store, Started s t c 3 e r ∧ (t.core c).spad = (s.core c).spad ∧ Eff.hbm store ∈ r.effects ∧
      (∀ p ∈ store, ((s.part (partOfCore c)).firstBarge + hBarge e.words) * 4096 ≤ p.1 ∧
        p.1 < ((s.part (partOfCore c)).firstBarge + hBarge e.words + (planeAt e.words 2).count / 4096) * 4096) ∧
      (t.part (partOfCore c)).reqs.length = (s.part (partOfCore c)).reqs.length + (planeAt e.words 2).count / 4096 ∧
      { t with cores := s.cores, parts := s.parts } = s ∧ (∀ n, n ≠ c.val → t.core n = s.core n))) ∧
  (∀ (s : State) (c : Fin 24) (e : QEntry) (links : List Nat) (bs : List Byte), AtHead s c 3 0x0C e → linkOk s.time.chip e.words = true →
    planePound (s.core c).spad e.job (planeAt e.words 2).flat false = true →
    links = (if lStripe e.words then s.pathTo (s.target (lDestChip e.words)) else (s.pathTo (s.target (lDestChip e.words))).take 1) →
    links ≠ [] → (lStripe e.words = true → 2 ≤ links.length) → (∀ l ∈ links, (s.link l).state = .up) →
    (lRetain e.words = true → (s.core c).retained.length + (s.core c).running.countP (fun r =>
      r.effects.any (fun x => match x with | .retain .. => true | _ => false)) < 32) →
    tagCheck (s.core c).spad (planeAt e.words 2).flat = none → bs = readPlane (s.core c).spad (planeAt e.words 2).flat →
    ((planeAt e.words 2).flat.barges ((s.core c).spad.pound (planeAt e.words 2).pound)).map (fun b => ((s.core c).spad.tag b.1).crc) =
      (List.range (bs.length / 4096)).map (fun j => crc32c ((bs.drop (4096 * j)).take 4096)) →
    Completes (.dmLinkSend c) s (fun t => ∃ r, Started s t c 3 e r ∧ (∀ l ∈ links, ∃ ms, Eff.link ms l ∈ r.effects) ∧
      (lRetain e.words = true ↔ ∃ x ∈ r.effects, ∃ a b d f g h ms o, x = Eff.retain a b d f g h ms o) ∧
      (t.core c).spad = (s.core c).spad ∧ (∀ n, n ≠ c.val → t.core n = s.core n) ∧ t.hbm = s.hbm ∧ t.jobs = s.jobs ∧
      ((∀ l ∈ links, l < 32) → t.links = s.links ∧
        (t.part (partOfCore c)).reqs.length = (s.part (partOfCore c)).reqs.length + bs.length / 4096)))

/-! ## Locks, commits and events of a core (chapters 08 and 09) -/

/-- Lock commands at the head of a queue. A wait whose condition holds leaves the queue and changes neither counter of its lock; one
whose condition does not hold stays and nothing changes (R288 to R291). LOCK_SIGNAL waits for the earlier commands of its queue; it
adds to its own core's lock at once (R300, R281), reaches another core 14 + 3h cycles later (R282), and another chip over the links;
LOCK_DEPTH starts, and its commit sets DEPTH (R301). -/
def Obligations.LockCommandsComplete : Prop :=
  (∀ (s : State) (c : Fin 24) (q : Fin 4) (e : QEntry) (i : Instr) (op : Nat),
    (i, op) ∈ [(Instr.waitf c q, 0xE0), (Instr.waitd c q, 0xE1), (Instr.waitComplete c q, 0xE0), (Instr.waitComplete c q, 0xE1)] →
    ((s.core c).queue q).head? = some e → e.op = op → s.jobRuns c e.job = true → s.stalledBy c e.job = false → waitOk e.words = true →
    ((s.core c).lock (wLock e.words)).valid = true → ((s.core c).lock (wLock e.words)).owner = e.job →
    wCount e.words ≤ ((s.core c).lock (wLock e.words)).depth →
    ((op = 0xE0 ∧ ((s.core c).lock (wLock e.words)).occ + wCount e.words ≤ ((s.core c).lock (wLock e.words)).depth) ∨
      (op = 0xE1 ∧ wCount e.words ≤ ((s.core c).lock (wLock e.words)).occ) →
      Completes i s (fun t => (t.core c).queue q = fixHead s.time.up ((s.core c).queue q).tail ∧ (t.core c).locks = (s.core c).locks ∧
        (t.core c).running = (s.core c).running ∧ (t.core c).spad = (s.core c).spad ∧ OnlyCore s t c)) ∧
    ((op = 0xE0 ∧ ((s.core c).lock (wLock e.words)).depth < ((s.core c).lock (wLock e.words)).occ + wCount e.words) ∨
      (op = 0xE1 ∧ ((s.core c).lock (wLock e.words)).occ < wCount e.words) → exec i s = .next s)) ∧
  (∀ (s : State) (c : Fin 24) (q : Fin 4) (e : QEntry) (g : Signal), ((s.core c).queue q).head? = some e → e.op = 0xE2 →
    s.jobRuns c e.job = true → s.stalledBy c e.job = false → signalOk e.words = true → (∀ r ∈ (s.core c).running, r.queue ≠ q.val) →
    (dSignal c e.words).map (fun x => { x with amount := bits (dw e.words 1) 16 7 }) = some g →
    (sXchip e.words = false → g.core = c.val → ((s.core c).lock g.lock).valid = true → ((s.core c).lock g.lock).owner = e.job →
      (∀ o ∈ (s.core c).overflows, o.lock ≠ g.lock) →
      (((s.core c).lock g.lock).add (if g.kind = 1 then g.amount else 0) (if g.kind = 2 then g.amount else 0)).inRange = true →
      Completes (.lockSignal c q) s (fun t => (t.core c).queue q = fixHead s.time.up ((s.core c).queue q).tail ∧
        (t.core c).lock g.lock =
          ((s.core c).lock g.lock).add (if g.kind = 1 then g.amount else 0) (if g.kind = 2 then g.amount else 0) ∧
        (∀ n, n ≠ g.lock → (t.core c).lock n = (s.core c).lock n) ∧ (t.core c).running = (s.core c).running ∧
        (t.core c).spad = (s.core c).spad ∧ OnlyCore s t c)) ∧
    (sXchip e.words = false → g.core ≠ c.val → Completes (.lockSignal c q) s (fun t =>
      (t.core c).queue q = fixHead s.time.up ((s.core c).queue q).tail ∧ (t.core c).locks = (s.core c).locks ∧
      t.core g.core = { s.core g.core with
        signals := (s.core g.core).signals ++ [(s.time.up + nsOf (14 + 3 * hops c g.core), g)] } ∧
      { t with cores := s.cores } = s)) ∧
    (sXchip e.words = true → exec (.lockSignal c q) s = .next ((s.modCore c (fun k => k.pop q s.time.up)).sendTo (lDestChip e.words)
      [.signal (bits (dw e.words 1) 13 2) (lDestChip e.words) g]))) ∧
  (∀ (s : State) (c : Fin 24) (q : Fin 4) (e : QEntry), ((s.core c).queue q).head? = some e → e.op = 0xE3 → s.jobRuns c e.job = true →
    s.stalledBy c e.job = false → bits (dw e.words 0) 15 17 = 0 → bits (dw e.words 1) 7 17 = 0 → zeroWords e.words 2 14 = true →
    bits (dw e.words 1) 0 7 ≠ 0 → bits (dw e.words 1) 0 7 ≤ 64 → ((s.core c).lock (wLock e.words)).valid = true →
    ((s.core c).lock (wLock e.words)).owner = e.job →
    Completes (.lockDepth c q) s (fun t => ∃ r, Started s t c q e r ∧ r.effects = [.depth (wLock e.words) (bits (dw e.words 1) 0 7)] ∧
      (t.core c).locks = (s.core c).locks ∧ OnlyCore s t c))

/-- A commit and what may kill a stalled command. The oldest started command of a queue commits once its barges have been granted and no
switch owns its engine, with the scratchpad errors that its accesses met counted: a LOCK_DEPTH sets DEPTH, a store to HBM stands with its
tags, and a command whose summary record finds room puts it in the FIFO and its tiles in place; one that finds none waits. A wait whose deadline
passed kills its job (R295); so does a VE commit that waited too long for the FIFO (R200), and a data mover that waited too long for a credit
(R296). -/
def Obligations.CommitsAndDeadlines : Prop :=
  (∀ (s : State) (c : Fin 24) (q : Fin 4) (r : Running) (es : List (Nat × Nat)),
    (s.core c).running.find? (fun r => r.queue == q.val) = some r → s.bargesDue c q r = false → s.switchOwns c = false →
    (∀ i n, r.effects = [.depth i n] → ((s.core c).lock i).occ ≤ n →
      Completes (.commandCommit c ⟨q, es⟩) s (fun t => (t.core c).running = (s.core c).running.erase r ∧ ((t.core c).lock i).depth = n ∧
        ((t.core c).lock i).occ = ((s.core c).lock i).occ ∧ (∀ m, m ≠ i → (t.core c).lock m = (s.core c).lock m) ∧
        (t.core c).spad = (s.core c).spad.corrected s.time.up es ∧ OnlyCore s t c)) ∧
    (∀ b g n o, r.effects = [.hbm b, .hbmTags g, .hbmWrites n, .occ o] →
      Completes (.commandCommit c ⟨q, es⟩) s (fun t => (t.core c).running = (s.core c).running.erase r ∧ t.hbm = s.hbm.writes b ∧
        t.hbmTags = g.foldl (fun x e => Table.put {} x e.1 e.2) s.hbmTags ∧
        (t.core c).spad = ((s.core c).spad.corrected s.time.up es).setOcc o ∧ (t.core c).locks = (s.core c).locks ∧
        { t with cores := s.cores, hbm := s.hbm, hbmTags := s.hbmTags, hbmStacks := s.hbmStacks } = s ∧
        ∀ m, m ≠ c.val → t.core m = s.core m)) ∧
    (∀ u ts ws, q.val = 2 → r.effects = [.busy 2 u, .tiles ts, .summary ws] →
      ((s.core c).ve.fifo.length < 16 → Completes (.commandCommit c ⟨q, es⟩) s (fun t =>
        (t.core c).running = (s.core c).running.erase r ∧ (t.core c).ve.fifo = (s.core c).ve.fifo ++ [ws] ∧
        (t.core c).ve.tiles = (s.core c).ve.tiles.writes ts ∧ (t.core c).ve.busy = (s.core c).ve.busy + BitVec.ofNat 64 u ∧
        (t.core c).spad = (s.core c).spad.corrected s.time.up es ∧ (t.core c).locks = (s.core c).locks ∧ OnlyCore s t c)) ∧
      (16 ≤ (s.core c).ve.fifo.length → Completes (.commandCommit c ⟨q, es⟩) s (fun t =>
        (t.core c).running = (s.core c).running ∧ (t.core c).ve.fifo = (s.core c).ve.fifo ∧ (t.core c).ve.tiles = (s.core c).ve.tiles ∧
        (t.core c).ve.sumSince = some ((s.core c).ve.sumSince.getD s.time.up) ∧ OnlyCore s t c)))) ∧
  (∀ (s : State) (c : Fin 24) (q : Fin 4) (e : QEntry), ((s.core c).queue q).head? = some e → e.op = 0xE0 ∨ e.op = 0xE1 →
    s.jobRuns c e.job = true → s.stalledBy c e.job = false → (∃ at_, e.headAt = some at_ ∧
      at_ + (if wDeadline e.words = 0 then (s.core c).deadlineUs.toNat else wDeadline e.words) * 1000 ≤ s.time.up) →
    Completes (.waitDeadline c q) s (fun t => (t.job e.job).state = .free ∧ (∀ x ∈ (t.core c).queue q, x.job ≠ e.job))) ∧
  (∀ (s : State) (c : Fin 24) (r : Running) (at_ : Nat), (s.core c).running.find? (fun r => r.queue == 2) = some r →
    s.jobRuns c r.job = true → (s.core c).ve.sumSince = some at_ → 16 ≤ (s.core c).ve.fifo.length →
    at_ + (s.core c).deadlineUs.toNat * 1000 ≤ s.time.up →
    Completes (.veSumOverflow c) s (fun t => (t.job r.job).state = .free ∧ (t.core c).ve.sumSince = none ∧
      (t.core c).ve.fifo = (s.core c).ve.fifo)) ∧
  (∀ (s : State) (c : Fin 24) (at_ j : Nat), (s.core c).creditWait = some at_ → (s.core c).creditWaiter = some j →
    at_ + (s.core c).deadlineUs.toNat * 1000 ≤ s.time.up →
    Completes (.creditTimeout c) s (fun t => (t.job j).state = .free ∧ (t.core c).creditWait = none)) ∧
  (∀ (s : State) (c : Fin 24) (x : LinkSend) (xs : List LinkSend), (s.core c).creditWait = none → (s.core c).linkSends = x :: xs →
    (s.link x.link).spare x.link = 0 → max x.since (Table.look 0 (s.link x.link).dry (bargeVc x.link)) +
      (s.core c).deadlineUs.toNat * 1000 ≤ s.time.up →
    Completes (.creditTimeout c) s (fun t => (t.job x.job).state = .free))

/-- The matrix engine's clock, and what arrives at a core. The clock stops after 2 µs of idleness and runs 300 ns after a wake
(R127); a parcel's bytes are written and its credit goes home, and what a killed command sent is discarded (R82, R325); its tags and signal
follow with the commit flit (R83); a credit home joins its entry, and a send that waits for it goes on; signals of one cycle take effect
together (R282); a quarantined lock is cleared no earlier than 100 µs after the kill (R308). -/
def Obligations.CoreEventsComplete : Prop :=
  (∀ (s : State) (c : Fin 24), MeAwake (s.core c) → (s.core c).queue 0 = [] → (∀ r ∈ (s.core c).running, r.queue ≠ 0) →
    (s.core c).me.idleAt + 2000 ≤ s.time.up →
    Completes (.meClockGate c) s (fun t => (t.core c).me = { (s.core c).me with gated := true } ∧ OnlyMe s t c)) ∧
  (∀ (s : State) (c : Fin 24), (s.core c).me.waking = true → (s.core c).me.wakeAt ≤ s.time.up →
    Completes (.meWakeEnd c) s (fun t => (t.core c).me = { (s.core c).me with waking := false } ∧ OnlyMe s t c)) ∧
  (∀ (s : State) (c : Fin 24) (p : Parcel) (ps : List Parcel), (s.core c).arrivals = p :: ps → p.src ≠ c.val →
    (p.dead = true → Completes (.remoteAccessArrive c) s (fun t => (t.core c).arrivals = ps ∧ (t.core c).spad = (s.core c).spad ∧
      (t.core p.src).returns = (s.core p.src).returns ++ [(p.credit, p.job)] ∧ { t with cores := s.cores } = s)) ∧
    (p.dead = false → s.switchOwns c = false → ((s.core c).spad.pound p.plane.pound).allowsRemote true p.plane.endb = true →
      berthFull (s.core c).spad p.plane = none →
      Completes (.remoteAccessArrive c) s (fun t => (t.core c).arrivals = ps ∧ (t.core c).spad.bytes = (s.core c).spad.bytes.writes
          (p.bytes.filterMap (fun b => ((planeAddrs ((s.core c).spad.pound p.plane.pound) p.plane)[b.1]?).map (·, b.2))) ∧
        (t.core c).spad.tags = (s.core c).spad.tags ∧
        (t.core p.src).returns = (s.core p.src).returns ++ [(p.credit, p.job)] ∧ (t.core p.src).spad = (s.core p.src).spad ∧
        { t with cores := s.cores } = s ∧ ∀ n, n ≠ c.val → n ≠ p.src → t.core n = s.core n))) ∧
  (∀ (s : State) (c : Fin 24) (f : CommitFlit) (gone : List Nat) (ts : List (Nat × Tag)) (os : List (Nat × Bool)) (sig : Option Signal)
    (rest : List CommitFlit), (s.core c).commits = f :: rest →
    f.effects = [.untag gone, .tags ts, .occ os] ++ (sig.map Eff.signal).toList → s.switchOwns c = false →
    (∀ p ∈ (s.core c).arrivals, p.src = f.src → p.cmd = f.cmd → p.dead = true) →
    exec (.remoteCommitFlit c) s = .next ((s.modCore c (fun k => { k with
      commits := rest, spad := (((k.spad.untag gone).setTags ts).setOcc os) })).remoteSignals c sig.toList)) ∧
  (∀ (s : State) (c : Fin 24) (i : Nat) (job : Nat) (rest : List (Nat × Nat)), (s.core c).returns = (i, job) :: rest →
    (Table.look {} (s.core c).spad.credits i).valid = true → (Table.look {} (s.core c).spad.credits i).job = job →
    (s.freeing.contains job = false → (∀ x ∈ (s.core c).sends, x.credit = i → x.asked = true) →
      Completes (.creditReturn c) s (fun t => (t.core c).returns = rest ∧ (Table.look {} (t.core c).spad.credits i).avail =
        min (Table.look {} (s.core c).spad.credits i).count ((Table.look {} (s.core c).spad.credits i).avail + 1) ∧
        (t.core c).spad.bytes = (s.core c).spad.bytes ∧ OnlyCore s t c)) ∧
    (∀ x, s.freeing.contains job = false → (s.core c).sends.find? (fun x => x.credit == i && !x.asked) = some x →
      0 < (Table.look {} (s.core c).spad.credits i).count → (Table.look {} (s.core c).spad.credits i).avail = 0 →
      Completes (.creditReturn c) s (fun t => (t.core c).returns = rest ∧ (t.core c).creditWait = none ∧
        (Table.look {} (t.core c).spad.credits i).avail = 0 ∧ (t.core c).spad.bytes = (s.core c).spad.bytes ∧
        (t.part (partOfCore c)).reqs = (s.part (partOfCore c)).reqs ++ bargeReqs 2 x.job c 0 x.cmd 0 s.time.up (s.job x.job).bulk
          [(x.todo.headD []).length] ∧ { t with cores := s.cores, parts := s.parts } = s))) ∧
  (∀ (s : State) (c : Fin 24) (i : Nat) (job : Nat) (rest : List (Nat × Nat)), (s.core c).returns = (i, job) :: rest →
    s.freeing.contains job = true → exec (.creditReturn c) s = .next ((s.modCore c (fun k => { k with
      returns := rest,
      spad := { k.spad with credits := Table.upd {} k.spad.credits i (fun e =>
        if e.valid && e.job == job then { e with avail := min e.count (e.avail + 1) } else e) } })).freePounds job)) ∧
  (∀ (s : State) (c : Fin 24) (at_ : Nat) (g : Signal) (gs : List (Nat × Signal)), (s.core c).signals = (at_, g) :: gs →
    at_ ≤ s.time.up → (∀ e ∈ gs, at_ ≤ e.1) →
    exec (.nocSignalArrive c) s = .next ((s.modCore c (fun k => { k with signals := gs.filter (fun e => e.1 != at_) })).remoteSignals c
      (g :: (gs.filter (fun e => e.1 == at_)).map (·.2))) ∧
    ((∀ e ∈ gs, at_ < e.1) → ((s.core c).lock g.lock).takesRemote = true → (∀ o ∈ (s.core c).overflows, o.lock ≠ g.lock) →
      (((s.core c).lock g.lock).add (if g.kind = 1 then g.amount else 0) (if g.kind = 2 then g.amount else 0)).inRange = true →
      Completes (.nocSignalArrive c) s (fun t => (t.core c).signals = gs ∧ (t.core c).lock g.lock = ((s.core c).lock g.lock).add
          (if g.kind = 1 then g.amount else 0) (if g.kind = 2 then g.amount else 0) ∧
        (∀ n, n ≠ g.lock → (t.core c).lock n = (s.core c).lock n) ∧ OnlyCore s t c))) ∧
  (∀ (s : State) (c : Fin 24) (i : Fin 256), ((s.core c).lock i).quar = true → ((s.core c).lock i).killedAt + 100000 ≤ s.time.up →
    Completes (.lockQuarantineClear c i) s (fun t => (t.core c).lock i = { (s.core c).lock i with quar := false } ∧
      (∀ n, n ≠ i.val → (t.core c).lock n = (s.core c).lock n) ∧ (∀ n, n ≠ c.val → t.core n = s.core n) ∧
      { t with cores := s.cores, waits := s.waits, accepted := s.accepted } = s))

/-! ## The control core (R42 to R46, R198, R199, R594) -/

/-- The control core executes RV64IMC. Of an instruction that is fetched at its pc: register operations write their result and move the
pc past it, x0 reads 0; a branch goes where its condition says, a jump links; a load and a store of a doubleword in its private memory
move 8 bytes; without a legal instruction it traps, halts, and no job of its partition is left. -/
def Obligations.ControlCoreExecutes : Prop :=
  (∀ (s : State) (c : Fin 24) (es : List (Nat × Nat)) (op : Alu) (w : Bool) (rd a b : Nat) (imm : DWord) (len : Nat)
    (i : Rv),
    (s.core c).cc.halted = false → (s.core c).cc.stall = .none → (s.core c).cc.fetch = some (i, len) →
    i = .opImm op w rd a imm ∨ i = .op op w rd a b →
    Completes (.ccInstruction ⟨c, es⟩) s (fun t => (t.core c).cc.pc = (s.core c).cc.pc + BitVec.ofNat 64 len ∧
      (rd ≠ 0 → (t.core c).cc.reg rd = aluRun op w ((s.core c).cc.reg a) (if i = .opImm op w rd a imm then imm else (s.core c).cc.reg b)) ∧
      (∀ r, r ≠ rd → (t.core c).cc.reg r = (s.core c).cc.reg r) ∧ (t.core c).cc.reg 0 = 0 ∧ (t.core c).cc.mem = (s.core c).cc.mem ∧
      (t.core c).spad = (s.core c).spad.corrected s.time.up es ∧ { t.core c with cc := (s.core c).cc, spad := (s.core c).spad } = s.core c ∧
      OnlyCore s t c)) ∧
  (∀ (s : State) (c : Fin 24) (es : List (Nat × Nat)) (f3 a b rd : Nat) (off : DWord) (len : Nat),
    (s.core c).cc.halted = false → (s.core c).cc.stall = .none →
    ((s.core c).cc.fetch = some (.branch f3 a b off, len) → Completes (.ccInstruction ⟨c, es⟩) s (fun t => (t.core c).cc.pc =
      (s.core c).cc.pc + (if branchTaken f3 ((s.core c).cc.reg a) ((s.core c).cc.reg b) then off else BitVec.ofNat 64 len) ∧
      (∀ r, (t.core c).cc.reg r = (s.core c).cc.reg r) ∧ OnlyCore s t c)) ∧
    ((s.core c).cc.fetch = some (.jal rd off, len) → rd ≠ 0 → Completes (.ccInstruction ⟨c, es⟩) s (fun t =>
      (t.core c).cc.pc = (s.core c).cc.pc + off ∧ (t.core c).cc.reg rd = (s.core c).cc.pc + BitVec.ofNat 64 len ∧ OnlyCore s t c)) ∧
    ((s.core c).cc.fetch = some (.load 3 rd a off, len) → ((s.core c).cc.reg a + off).toNat % 8 = 0 →
      ((s.core c).cc.reg a + off).toNat < 0x40000 → rd ≠ 0 → Completes (.ccInstruction ⟨c, es⟩) s (fun t =>
        (t.core c).cc.reg rd = BitVec.ofNat 64 (leNat ((s.core c).cc.mem.readN ((s.core c).cc.reg a + off).toNat 8)) ∧
        (t.core c).cc.mem = (s.core c).cc.mem ∧ OnlyCore s t c)) ∧
    ((s.core c).cc.fetch = some (.store 3 a b off, len) → ((s.core c).cc.reg a + off).toNat % 8 = 0 →
      ((s.core c).cc.reg a + off).toNat < 0x40000 → Completes (.ccInstruction ⟨c, es⟩) s (fun t =>
        (∀ i < 8, (t.core c).cc.mem.read (((s.core c).cc.reg a + off).toNat + i) =
          BitVec.ofNat 8 (((s.core c).cc.reg b).toNat / 256 ^ i)) ∧
        (∀ x, x < ((s.core c).cc.reg a + off).toNat ∨ ((s.core c).cc.reg a + off).toNat + 8 ≤ x →
          (t.core c).cc.mem.read x = (s.core c).cc.mem.read x) ∧ (∀ r, (t.core c).cc.reg r = (s.core c).cc.reg r) ∧ OnlyCore s t c)) ∧
    ((s.core c).cc.fetch = none → Completes (.ccInstruction ⟨c, es⟩) s (fun t => (t.core c).cc.halted = true ∧ (t.core c).cc.trapped = true ∧
      ∀ j ∈ jobsOf (partOfCore c), (t.job j).state = .free)))

/-- Queues, the summary FIFO and the scan gate as the control core uses them. The last store to a window puts its 16 words at the
end of the queue with the scalars captured then (R44, R195), stalls the core while the queue holds 64 entries (R45), and goes on once it
does not; without a RUNNING job the core halts (R323). The FIFO head's last word pops the record, and an empty FIFO stalls the core until
a record comes or the deadline passes (R198, R199). The gate's load answers 0, or holds the core for a segment (R594). -/
def Obligations.ControlCoreWindows : Prop :=
  (∀ (s : State) (c : Fin 24) (q : Fin 4) (ws : List Word), s.jobsIn (partOfCore c) .running ≠ [] →
    (((s.core c).queue q).length < 64 → Completes (.descriptorEnqueue c q ws) s (fun t => (t.core c).queue q = fixHead s.time.up
        ((s.core c).queue q ++ [{ words := ws, caps := captures (s.core c).cc q ws, stamp := (s.core c).issued }]) ∧
      (t.core c).issued = (s.core c).issued + 1 ∧
      (∀ p, p ≠ q.val → (t.core c).queue p = (s.core c).queue p) ∧ (t.core c).running = (s.core c).running ∧ OnlyCore s t c)) ∧
    (64 ≤ ((s.core c).queue q).length → Completes (.descriptorEnqueue c q ws) s (fun t => (t.core c).cc.stall = .queue q ∧
      (t.core c).queues = (s.core c).queues ∧ OnlyCore s t c)) ∧
    ((s.core c).cc.stall = .queue q → ((s.core c).queue q).length < 64 → Completes (.queueFullResume c) s (fun t =>
      (t.core c).cc.stall = .none ∧ ((t.core c).queue q).length = ((s.core c).queue q).length + 1 ∧ OnlyCore s t c))) ∧
  (∀ (s : State) (c : Fin 24) (q : Fin 4) (ws : List Word), s.jobsIn (partOfCore c) .running = [] →
    exec (.descriptorEnqueue c q ws) s = .next (s.modCore c (fun k => { k with cc := { k.cc with halted := true } }))) ∧
  (∀ (s : State) (c : Fin 24) (rd : Fin 32) (r : List Word) (rest : List (List Word)), (s.core c).ve.fifo = r :: rest → rd.val ≠ 0 →
    Completes (.summaryFifoPop c rd) s (fun t => (t.core c).ve.fifo = rest ∧
      (t.core c).cc.reg rd = BitVec.ofNat 64 (join64 (r.getD 14 0) (r.getD 15 0)) ∧ OnlyCore s t c)) ∧
  (∀ (s : State) (c : Fin 24) (rd : Fin 32), (s.core c).ve.fifo = [] →
    Completes (.summaryFifoPop c rd) s (fun t => (t.core c).cc.stall = .summary rd 7 s.time.up ∧ OnlyCore s t c)) ∧
  (∀ (s : State) (c : Fin 24) (rd w at_ : Nat) (r : List Word) (rest : List (List Word)), (s.core c).cc.stall = .summary rd w at_ →
    (s.core c).ve.fifo = r :: rest → Completes (.summaryStallResume c) s (fun t => (t.core c).cc.stall = .none ∧
      (t.core c).ve.fifo = (if w = 7 then rest else r :: rest) ∧
      (rd ≠ 0 → (t.core c).cc.reg rd = BitVec.ofNat 64 (join64 (r.getD (2 * w) 0) (r.getD (2 * w + 1) 0))) ∧ OnlyCore s t c)) ∧
  (∀ (s : State) (c : Fin 24) (rd w at_ : Nat), (s.core c).cc.stall = .summary rd w at_ → (s.core c).ve.fifo = [] →
    at_ + (s.core c).deadlineUs.toNat * 1000 ≤ s.time.up → Completes (.veSumTimeout c) s (fun t => (t.core c).cc.halted = true ∧
      ∀ j ∈ jobsOf (partOfCore c), (t.job j).state = .free)) ∧
  (∀ (s : State) (c : Fin 24) (rd : Fin 32), s.segmentPlaced c = false → Completes (.scanGate c rd) s (fun t =>
    (t.core c).cc = (s.core c).cc.setReg rd 0 ∧ OnlyCore s t c)) ∧
  (∀ (s : State) (c : Fin 24) (rd : Fin 32), s.segmentPlaced c = true → Completes (.scanGate c rd) s (fun t =>
    (t.core c).cc.stall = .scan rd ∧ t.integ.scanCore = some c.val ∧ t.jobs = s.jobs ∧ t.hbm = s.hbm ∧
    ∀ n, n ≠ c.val → t.core n = s.core n))

/-! ## Flash, ledger and firmware (chapter 17) -/

/-- The firmware, ledger and flash commands complete. FW_UPDATE writes the image that is not running, FW_ACTIVATE makes an image PENDING
and with NOW marks the warm reset that follows its reply; LEDGER_READ answers the entries of a TYPE, LEDGER_WRITE replaces a host
record or clears the steering baselines; FLASH_HEALTH answers its five words, with a raw page where asked. -/
def Obligations.FlashCommandsComplete : Prop :=
  (∀ (s s1 : State) (via : Via) (c : Cmd) (img : FwImage), Runs s via 0x0801 (fun _ => true) s1 c → 1 ≤ c.p 2 → c.p 2 ≤ 16384 →
    s1.busyWith (fun a => conflicts a actFirmware) = none → img.valid s1.flash.svn = true →
    (∀ ep, c.origin = .tow ep → ∃ d, s1.dataOf c = some d ∧ d.want ≤ reach d.got) →
    Completes (.fwUpdate via img) s (fun t => Replied t c St.ok 0 [img.version, lo32 (1 - s1.flash.fwImage)] ∧
      t.flash.image (1 - s1.flash.fwImage) = some img ∧ t.flash.image s1.flash.fwImage = s1.flash.image s1.flash.fwImage ∧
      t.flash.ledger = s1.flash.ledger ∧ t.jobs = s1.jobs ∧ t.hbm = s1.hbm ∧ t.cores = s1.cores)) ∧
  (∀ (s s1 : State) (via : Via) (c : Cmd) (i : Nat), Runs s via 0x0802 (fun _ => true) s1 c → i < 2 → s1.flash.valid i = true →
    (c.p 0 = i ∨ (c.p 0 = 0x100 + i ∧ (s1.pair.state = .unbound ∨ (s1.pair.state = .yielded ∧ s1.streams = [])))) →
    Completes (.fwActivate via) s (fun t => Replied t c St.ok 0 [] ∧ t.flash.ledger.fwPending = some i ∧
      (c.p 0 = i → t.rst.afterReply = s1.rst.afterReply) ∧
      (c.p 0 ≠ i → t.rst.afterReply = some (c.origin.code, c.seq, .fwActivate)) ∧ t.jobs = s1.jobs ∧ t.hbm = s1.hbm)) ∧
  (∀ (s s1 : State) (via : Via) (c : Cmd), Runs s via 0x0803 (fun _ => true) s1 c → c.p 0 < 65536 → c.p 3 % 64 = 0 →
    exec (.ledgerRead via) s = .next (s1.doneWith c (c.addr 1) ((s1.flash.ledger.read (c.p 0)).take (c.p 3))
      [lo32 ((s1.flash.ledger.read (c.p 0)).take (c.p 3)).length, s1.flash.seq])) ∧
  (∀ (s s1 : State) (via : Via) (c : Cmd) (data : List Byte), Runs s via 0x0804 (fun _ => true) s1 c →
    s1.busyWith (clash actLedger) = none →
    (0x100 ≤ c.p 0 → c.p 0 < 0x200 → c.p 3 % 64 = 0 → c.p 3 ≤ 65536 → data.length = c.p 3 →
      hostTotal (Table.put [] s1.flash.pending.host (c.p 0 - 0x100) data) ≤ 131072 →
      Completes (.ledgerWrite via data) s (fun t => Replied t c St.ok 0 [lo32 (c.p 3), s1.flash.seq + 1] ∧
        Table.look [] t.flash.ledger.host (c.p 0 - 0x100) = data ∧
        (∀ n, n ≠ c.p 0 - 0x100 → Table.look [] t.flash.ledger.host n = Table.look [] s1.flash.pending.host n) ∧
        t.flash.ledger.coreMap = s1.flash.pending.coreMap ∧ t.jobs = s1.jobs ∧ t.hbm = s1.hbm)) ∧
    (c.p 0 = 6 → c.p 3 = 0 → Completes (.ledgerWrite via data) s (fun t => Replied t c St.ok 0 [0, s1.flash.seq + 1] ∧
      t.flash.ledger.steering = [] ∧ t.flash.ledger.host = s1.flash.pending.host ∧ t.jobs = s1.jobs ∧ t.hbm = s1.hbm))) ∧
  (∀ (s s1 : State) (via : Via) (c : Cmd), Runs s via 0x0805 (fun c => c.action != 1) s1 c → c.p 0 = 0 →
    exec (.flashHealthSummary via) s = .next (s1.reply c St.ok 0 s1.flashWords)) ∧
  (∀ (s s1 : State) (via : Via) (c : Cmd) (page : List Byte), Runs s via 0x0805 (fun c => c.action == 1) s1 c → c.p 0 = 0x40000000 →
    c.p 1 < 16384 → c.p 2 < 256 → page.length = 16384 →
    exec (.flashHealthRawRead via page true) s = .next (s1.doneWith c (c.addr 3) page s1.flashWords) ∧
    Completes (.flashHealthRawRead via page false) s (fun t => Replied t c St.flashError 5 [] ∧ t.flash.ue = satAdd s1.flash.ue 1))

/-- The flash's own work. The dredge's due time only comes forward; a read of a pass moves it on and counts what it finds, and the last ends
the pass; pending ledger changes are written within 60 s; a NAND die above 95 °C is reported once an hour, a low reserve once a day; a block
whose program or erase failed is listed as bad with its cause. -/
def Obligations.FlashEventsComplete : Prop :=
  (∀ s : State, s.rst.ready = true → Completes .dredgeIntervalUpdate s (fun t =>
    t.flash.dredgeDue = (if s.flash.dredgeDue ≤ s.flash.dredgeStart then s.flash.dredgeStart + dredgeMinutes s.flash.maxTemp * minuteNs
      else min s.flash.dredgeDue (s.flash.dredgeStart + dredgeMinutes s.flash.maxTemp * minuteNs)) ∧
    ((s.act actDredge).phase ≠ .idle → (t.act actDredge).due = some t.flash.dredgeDue) ∧
    (t.act actDredge).phase = (s.act actDredge).phase ∧ { t with flash := s.flash, mgmt := s.mgmt } = s)) ∧
  (∀ (s : State) (r : DredgeRead), s.rst.ready = true → (s.act actDredge).phase = .granted ∨ (s.act actDredge).phase = .running →
    r.block < 16384 → Completes (.dredgeRead r) s (fun t =>
      t.flash.ue = (if r.uncorrectable then satAdd s.flash.ue 1 else s.flash.ue) ∧
      t.flash.refreshed = (if r.uncorrectable = false ∧ (40 ≤ r.bits ∨ r.retry = true) then satAdd s.flash.refreshed 1
        else s.flash.refreshed) ∧
      (r.last = false → (t.act actDredge).phase = .running ∧ (t.act actDredge).steps = (s.act actDredge).steps + 1 ∧
        t.flash.dredgeLast = s.flash.dredgeLast) ∧
      (r.last = true → (t.act actDredge).phase = .idle ∧ t.flash.dredgeLast = BitVec.ofNat 64 s.time.now) ∧
      t.jobs = s.jobs ∧ t.hbm = s.hbm)) ∧
  (∀ (s : State) (at_ : Nat), s.flash.pendingSince = some at_ → at_ + 60000000000 ≤ s.time.up → s.rst.ready = true →
    Completes .ledgerWriteDue s (fun t => t.flash.ledger = s.flash.pending ∧ t.flash.seq = s.flash.seq + 1 ∧
      t.flash.pendingSince = none ∧ t.jobs = s.jobs ∧ t.hbm = s.hbm)) ∧
  (∀ (s : State) (a b : Int), Completes (.nandTempRead a b) s (fun t => t.flash.nand0 = a ∧ t.flash.nand1 = b ∧
    t.flash.maxTemp = max s.flash.maxTemp (max a b) ∧ t.jobs = s.jobs ∧ t.hbm = s.hbm ∧
    (95 < max a b → s.flash.hotReported = none → s.rst.ready = true → t.flash.hotReported = some s.time.up))) ∧
  (∀ s : State, s.flash.reserve ≤ 512 → s.flash.wearReported = none → s.rst.ready = true →
    Completes .flashWearReport s (fun t => t.flash.wearReported = some s.time.up ∧ t.jobs = s.jobs ∧ t.hbm = s.hbm)) ∧
  (∀ (s : State) (n : Nat) (erase : Bool), n < 16384 → s.flash.grown.length < 4096 → Completes (.flashOpFail n erase) s (fun t =>
    (s.flash.phys n, (if erase then 2 else 1), s.time.now) ∈ t.flash.grown ∧ t.flash.ledger = s.flash.ledger ∧ t.jobs = s.jobs ∧
    t.hbm = s.hbm))

/-! ## Integrity and field test (chapter 16) -/

/-- The integrity commands complete. TEST_SCAN starts a pass on its core and waits for it, or sets the core's interval; TEST_OBSERVE
reads a core's health, makes it SUSPECT, or makes a SUSPECT core GOOD; CORE_RETIRE of an unbound chip without jobs puts the row's remap
and the failed site in the ledger and marks the restart; SIGNATURE_EXPORT answers the records asked for, PATTERN_INSTALL makes its
package the library. -/
def Obligations.IntegrityCommandsComplete : Prop :=
  (∀ (s s1 : State) (via : Via) (c : Cmd), Runs s via 0x0701 (fun c => c.action != 1) s1 c → c.p 0 < 24 → c.p 1 < 65536 →
    s1.busyWith (clash (actScan (c.p 0) false)) = none →
    Completes (.testScanNow via) s (fun t => Waits t c (.scan (c.p 0)) ∧
      (t.healthOf (c.p 0)).pass = some ((s1.healthOf (c.p 0)).pass.getD 0) ∧
      ((s1.healthOf (c.p 0)).pass = none → (t.healthOf (c.p 0)).ran = 0) ∧ (t.act (actScan (c.p 0) false)).phase = .running ∧ t.jobs = s1.jobs ∧ t.cores = s1.cores)) ∧
  (∀ (s s1 : State) (via : Via) (c : Cmd) (k : Nat), Runs s via 0x0701 (fun c => c.action == 1) s1 c → c.p 0 = 0x40000000 + k → k < 24 →
    10 ≤ c.p 1 → c.p 1 ≤ 1440 → Completes (.testScanInterval via) s (fun t => Replied t c St.ok 0 [0, 0xFFFFFFFF] ∧
      (t.healthOf k).intervalMin = c.p 1 ∧ (∀ n, n ≠ k → t.healthOf n = s1.healthOf n) ∧ t.cores = s1.cores ∧ t.jobs = s1.jobs)) ∧
  (∀ (s s1 : State) (via : Via) (c : Cmd), Runs s via 0x0703 (fun c => c.action == 0 || c.action == 3) s1 c → c.p 0 < 24 →
    exec (.testObserveRead via) s = .next (s1.reply c St.ok 0 [lo32 (s1.healthOf (c.p 0)).state, (s1.healthOf (c.p 0)).transient,
      (s1.healthOf (c.p 0)).permanent])) ∧
  (∀ (s s1 : State) (via : Via) (c : Cmd) (k : Nat), Runs s via 0x0703 (fun c => c.action == 1) s1 c → c.p 0 = 0x40000000 + k → k < 24 →
    Completes (.testObserveMark via) s (fun t => (t.healthOf k).state = max (s1.healthOf k).state 1 ∧ bitAt (t.healthOf k).source 4 = true ∧
      Replied t c St.ok 0 (t.healthOf k).words ∧ (∀ n, n ≠ k → t.healthOf n = s1.healthOf n) ∧ t.jobs = s1.jobs)) ∧
  (∀ (s s1 : State) (via : Via) (c : Cmd) (k : Nat), Runs s via 0x0703 (fun c => c.action == 2) s1 c → c.p 0 = 0x80000000 + k → k < 24 →
    (s1.healthOf k).state = 1 → Completes (.testObserveClear via) s (fun t => (t.healthOf k).state = 0 ∧ (t.healthOf k).source = 0 ∧
      (t.healthOf k).passes = 0 ∧ Replied t c St.ok 0 (t.healthOf k).words ∧ (∀ n, n ≠ k → t.healthOf n = s1.healthOf n))) ∧
  (∀ (s s1 : State) (via : Via) (c : Cmd), Runs s via 0x0704 (fun _ => true) s1 c → c.p 0 < 24 → s1.pair.state = .unbound →
    (∀ j < 96, (s1.job j).state = .free) → s1.spareUsed (c.p 0) = false → s1.busyWith (clash (actRemap (c.p 0))) = none →
    Completes (.coreRetire via) s (fun t => Replied t c St.ok 0 [] ∧ t.flash.ledger.coreMap = s1.coreMap.set (c.p 0 / 6)
        (remapWord (s1.coreMap.getD (c.p 0 / 6) 0) (c.p 0 % 6)) ∧ s1.siteOf (c.p 0) ∈ t.flash.ledger.failedSites ∧
      t.coreMap = s1.coreMap ∧ t.rst.afterReply = some (c.origin.code, c.seq, .retire) ∧ t.jobs = s1.jobs ∧ t.hbm = s1.hbm)) ∧
  (∀ (s s1 : State) (via : Via) (c : Cmd) (r : List Byte × Nat × List SigRec), Runs s via 0x0705 (fun _ => true) s1 c → c.p 1 < 65536 →
    c.p 4 % 64 = 0 → r = exportRecords (c.p 1) (c.p 4) ((s1.integ.ring ++ s1.integ.held).filter (fun e => c.p 0 ≤ e.index)) →
    exec (.signatureExport via) s = .next (s1.doneWith c (c.addr 2) r.1 [lo32 r.2.1, lo32 r.1.length,
      lo32 ((r.2.2.head?.map (·.index)).getD s1.integ.sigNext.toNat),
      lo32 (((s1.integ.ring ++ s1.integ.held).head?.map (·.index)).getD s1.integ.sigNext.toNat)])) ∧
  (∀ (s s1 : State) (via : Via) (c : Cmd) (pkg : PatternPkg), Runs s via 0x0706 (fun _ => true) s1 c → 1 ≤ c.p 2 → c.p 2 ≤ 524288 →
    s1.busyWith (clash actPattern) = none → 64 < s1.flash.reserve → (s1.flash.models.map (·.pkg.len4k)).sum + c.p 2 ≤ storeUnits →
    s1.patternOk pkg = true → (∀ ep, c.origin = .tow ep → ∃ d, s1.dataOf c = some d ∧ d.want ≤ reach d.got) →
    Completes (.patternInstall via pkg) s (fun t => Replied t c St.ok 0 [pkg.version] ∧ t.integ.pkg = some pkg ∧
      t.integ.patternVersion = pkg.version ∧ t.integ.libValid = true ∧ t.flash.pending.pattern = pkg.version ∧ t.jobs = s1.jobs))

/-- The integrity events. A check 40 µs after its first CRC is late and counted (R575). A segment that ends at a core's gate, or back to back on
a core whose job does not run, is done when it passes and is repeated when it first fails, and leaves the weight sets EMPTY and the scratchpad as it was; the gate's load
answers 1. Held signature records go into the ring; the ring's ends are noted in the ledger once an hour (R626). -/
def Obligations.IntegrityEventsComplete : Prop :=
  (∀ (s : State) (p : Fin 12) (id : Nat) (e : Check), e ∈ (s.check p).checks → e.id = id → e.orig = none ∨ e.dup = none →
    e.since + 40000 ≤ s.time.up → Completes (.checkTimerExpiry p id) s (fun t => (t.check p).late = satAdd (s.check p).late 1)) ∧
  (∀ (s : State) (c : Fin 24) (kind seg : Nat) (rest : List Nat) (pass : Bool) (resp : Word),
    s.integ.scanCore = some c.val ∨
      (s.segmentPlaced c = true ∧ ((s.live (partOfCore c)).isEmpty = true ∨ (s.healthOf c).pass = some 1)) →
    (s.healthOf c).pass = some kind → (s.healthOf c).todo = seg :: rest → rest ≠ [] → (s.healthOf c).retry = false →
    Completes (.scanSegmentEnd c pass resp) s (fun t =>
      t.integ.scanCore = none ∧
      (∀ rd, s.integ.scanCore = some c.val → (s.core c).cc.stall = .scan rd →
        (t.core c).cc.stall = .none ∧ (t.core c).cc.reg rd = if rd = 0 then 0 else 1) ∧
      (s.integ.scanCore = none → (t.core c).cc = (s.core c).cc) ∧
      (pass = true → (t.healthOf c).todo = rest ∧ (t.healthOf c).ran = (s.healthOf c).ran + 1 ∧ (t.healthOf c).retry = false) ∧
      (pass = false → (t.healthOf c).todo = seg :: rest ∧ (t.healthOf c).retry = true ∧
        (t.healthOf c).segFail = satAdd (s.healthOf c).segFail 1) ∧
      (t.core c).me.set0.state = 0 ∧ (t.core c).me.set1.state = 0 ∧ (t.core c).spad = (s.core c).spad ∧ t.jobs = s.jobs ∧
      t.hbm = s.hbm)) ∧
  (∀ s : State, s.rst.ready = true → s.integ.held ≠ [] → Completes .signatureFlush s (fun t => t.integ.held = [] ∧
    t.integ.ring = lastN 262144 (s.integ.ring ++ s.integ.held) ∧ t.integ.sigNext = s.integ.sigNext ∧ t.jobs = s.jobs)) ∧
  (∀ s : State, s.rst.ready = true → s.flash.checkpointAt + 3600000000000 ≤ s.time.up → Completes .ringCheckpoint s (fun t =>
    t.flash.pending.checkpoint = (s.integ.sigOldest.toNat,
      (s.integ.ring.getLast?.map (fun r => r.index + 1)).getD s.integ.sigOldest.toNat) ∧
    t.flash.checkpointAt = s.time.up ∧ t.integ = s.integ ∧ t.jobs = s.jobs))

/-! ## Management, census, maintenance, towpath and JTAG (chapters 08, 19, 20) -/

/-- The arbiter's events. A scan or self-test falls due its interval after the last, at once where a stand-down asks for it; the dredge, a ledger
write and a re-mirror are released as they fall due. A pending activity without conflicts is granted, one that needs a handover once its partitions are
clear; from the urgent level on, a MIRRORED chip gives its streams for it. At 0.75 of its time an activity is urgent, at its due time forced, and
again every second, with an event each time; a retrain that is done leaves its stack trained, and a spare remap writes the row's remap
and begins the quiesce of the restart. -/
def Obligations.MaintenanceEventsComplete : Prop :=
  (∀ (s : State) (c : Nat) (b : Bool), c < 24 → s.rst.ready = true → (s.act (actScan c b)).phase = .idle →
    Completes (.maintRelease (actScan c b)) s (fun t => (t.act (actScan c b)).phase = .pending ∧
      (t.act (actScan c b)).release = s.time.up ∧ (t.act (actScan c b)).due = some (if s.standAsks c (b2n b) then s.time.up
        else if b then s.dueAfter (s.healthOf c).lastB weekNs
        else s.dueAfter (s.healthOf c).lastA ((if (s.healthOf c).state = 1 then 10 else (s.healthOf c).intervalMin) * minuteNs)) ∧
      (∀ n, n ≠ actScan c b → t.act n = s.act n) ∧ { t with mgmt := s.mgmt } = s)) ∧
  (∀ (s : State) (c : Nat), c < 24 → s.rst.ready = true → (s.act (actBist c)).phase = .idle →
    Completes (.maintRelease (actBist c)) s (fun t => (t.act (actBist c)).phase = .pending ∧
      (t.act (actBist c)).due = some (s.dueAfter (s.healthOf c).lastBist weekNs) ∧ { t with mgmt := s.mgmt } = s)) ∧
  (∀ (s : State), s.rst.ready = true → (s.act actDredge).phase = .idle → Completes (.maintRelease actDredge) s (fun t =>
    (t.act actDredge).phase = .pending ∧ t.flash.dredgeStart = s.time.up ∧ (t.act actDredge).due = some t.flash.dredgeDue ∧
    t.flash.dredgeDue = s.time.up + dredgeMinutes (max s.flash.nand0 s.flash.nand1) * minuteNs ∧
    { t with mgmt := s.mgmt, flash := s.flash } = s)) ∧
  (∀ (s : State) (n : Nat), s.rst.ready = true → (s.act actLedger).phase = .idle → s.flash.pendingSince = some n →
    Completes (.maintRelease actLedger) s (fun t => (t.act actLedger).phase = .pending ∧
      (t.act actLedger).due = some (n + 60000000000) ∧ { t with mgmt := s.mgmt } = s)) ∧
  (∀ (s : State), s.rst.ready = true → (s.act actRemirror).phase = .idle → s.pair.state = .unmirrored →
    Completes (.maintRelease actRemirror) s (fun t => (t.act actRemirror).phase = .pending ∧
      (t.act actRemirror).due = some (s.time.up + 2000000000) ∧ { t with mgmt := s.mgmt } = s)) ∧
  (∀ (s : State) (id : Nat), s.rst.ready = true → (s.act id).phase = .pending → s.blocked id = false →
    actKind id = 3 ∨ actKind id = 4 ∨ actKind id = 5 ∨ actKind id = 7 →
    Completes (.maintGrant id) s (fun t => (t.act id).phase = .granted ∧ (∀ n, n ≠ id → t.act n = s.act n) ∧ { t with mgmt := s.mgmt } = s)) ∧
  (∀ (s : State) (k : Nat), k < 4 → s.rst.ready = true → (s.act (actRetrain k)).phase = .pending → s.blocked (actRetrain k) = false →
    s.clearFor (actRetrain k) = true → s.pair.state ≠ .solo → Completes (.maintGrant (actRetrain k)) s (fun t =>
      (t.act (actRetrain k)).phase = .running ∧ (t.stack k).margin = 3 ∧
      { t with mgmt := s.mgmt, hbmStacks := s.hbmStacks } = s)) ∧
  (∀ (s : State) (id : Nat), s.rst.ready = true → (s.act id).phase = .pending → s.blocked id = false → actHandover id = true →
    s.clearFor id = false → (s.act id).levelAt s.time.up ≠ 0 → s.pair.state = .mirrored → s.pair.handover = none →
    Completes (.maintGrant id) s (fun t => t.pair.gave = true ∧
      (∃ h, t.pair.handover = some h ∧ h.give = true ∧ h.moving = s.movable true 0 ∧ s.time.now + 1000000 ≤ h.at_) ∧
      { t with pair := s.pair, free := s.free } = s)) ∧
  (∀ (s : State) (id d : Nat), (s.act id).phase ≠ .idle → (s.act id).level = 0 → (s.act id).due = some d → s.time.up < d →
    4 * (s.act id).release + 3 * (d - (s.act id).release) ≤ 4 * s.time.up →
    Completes (.maintUrgent id) s (fun t => (t.act id).level = 1 ∧ (t.act id).escalated = true ∧ (t.act id).phase = (s.act id).phase ∧
      (∀ n, n ≠ id → t.act n = s.act n) ∧ t.jobs = s.jobs ∧ t.cores = s.cores)) ∧
  (∀ (s : State) (id d : Nat), (s.act id).phase ≠ .idle → (s.act id).level ≠ 2 → (s.act id).due = some d → d ≤ s.time.up →
    Completes (.maintForced id) s (fun t => (t.act id).level = 2 ∧ (t.act id).repeatAt = s.time.up ∧
      t.mgmt.forced = satAdd s.mgmt.forced 1 ∧ (∀ n, n ≠ id → t.act n = s.act n) ∧ t.jobs = s.jobs ∧ t.cores = s.cores)) ∧
  (∀ (s : State) (id : Nat), (s.act id).phase ≠ .idle → (s.act id).level = 2 → (s.act id).repeatAt + 1000000000 ≤ s.time.up →
    Completes (.maintForcedRepeat id) s (fun t => (t.act id).level = 2 ∧ (t.act id).repeatAt = s.time.up ∧
      t.mgmt.forced = s.mgmt.forced ∧ t.jobs = s.jobs ∧ t.cores = s.cores)) ∧
  (∀ (s : State) (k : Nat), k < 4 → (s.act (actRetrain k)).phase = .running → s.clearFor (actRetrain k) = true →
    Completes (.maintDone (actRetrain k)) s (fun t => (t.stack k).trained = true ∧ (t.stack k).margin = 0 ∧
      (t.act (actRetrain k)).phase = .idle ∧ t.jobs = s.jobs ∧ t.hbm = s.hbm)) ∧
  (∀ (s : State) (c : Nat), Working s → c < 24 → (s.act (actRemap c)).phase = .running → s.clearFor (actRemap c) = true →
    Completes (.maintDone (actRemap c)) s (fun t => t.rst.quiesce = some s.time.up ∧ t.rst.cause = 7 ∧
      t.flash.ledger.coreMap = s.coreMap.set (c / 6) (remapWord (s.coreMap.getD (c / 6) 0) (c % 6)) ∧
      s.siteOf c ∈ t.flash.ledger.failedSites ∧ t.coreMap = s.coreMap ∧ t.jobs = s.jobs))

/-- TELEMETRY_READ answers an item's bytes with its AS_OF, and a VF only of its own partition. The census: CENSUS_ARM arms it and keeps
the header a cancel goes back to; CENSUS_CANCEL goes back; a forwarded arm arms a chip that has none armed; the latch keeps the shadow
image of that instant and changes nothing else; CENSUS_READ answers bytes of it. -/
def Obligations.TelemetryAndCensusComplete : Prop :=
  (∀ (s s1 : State) (via : Via) (c : Cmd) (i : Item), Runs s via 0x0901 (fun _ => true) s1 c → itemOf (c.p 0) = some i →
    c.ownPart = none ∨ c.ownPart = i.owner →
    (i ≠ .power → exec (.telemetryRead via) s = .next (s1.doneInto c (c.addr 1) ((s1.itemBytes i).1.take (c.p 3))
      [lo32 ((s1.itemBytes i).1.take (c.p 3)).length, lo32 (s1.itemBytes i).2, hi32 (s1.itemBytes i).2])) ∧
    Completes (.telemetryRead via) s (fun t => Replied t c St.ok 0 [lo32 ((s1.itemBytes i).1.take (c.p 3)).length,
      lo32 (s1.itemBytes i).2, hi32 (s1.itemBytes i).2] ∧ t.jobs = s1.jobs ∧ t.cores = s1.cores ∧ t.hbm = s1.hbm)) ∧
  (∀ (s s1 : State) (via : Via) (c : Cmd), Runs s via 0x0902 (fun c => c.addr 0 != 0) s1 c → c.p 2 &&& 0xFFF0 = 0 →
    s1.time.now + 50000 + 2000 * (c.p 2 % 16) ≤ c.addr 0 → c.addr 0 ≤ s1.time.now + 10000000000 → s1.census.head.state ≠ .armed →
    Completes (.censusArm via) s (fun t => Replied t c St.ok 0 [] ∧ t.census.head.state = .armed ∧ t.census.head.t = c.addr 0 ∧
      t.census.head.id = c.p 2 / 65536 ∧ t.census.head.refused = 0 ∧ t.census.prev = s1.census.head ∧ t.census.shadow = s1.census.shadow ∧
      t.jobs = s1.jobs ∧ t.cores = s1.cores ∧ t.hbm = s1.hbm)) ∧
  (∀ (s s1 : State) (via : Via) (c : Cmd), Runs s via 0x0902 (fun c => c.addr 0 == 0) s1 c → c.p 2 &&& 0xFFF0 = 0 →
    s1.census.head.state = .armed → Completes (.censusCancel via) s (fun t => Replied t c St.ok 0 [] ∧ t.census.head = s1.census.prev ∧
      t.census.shadow = s1.census.shadow ∧ t.jobs = s1.jobs ∧ t.cores = s1.cores)) ∧
  (∀ (s s1 : State) (via : Via) (c : Cmd), Runs s via 0x0902 (fun c => c.addr 0 == 0) s1 c → c.p 2 &&& 0xFFF0 = 0 →
    s1.census.head.state ≠ .armed → exec (.censusCancel via) s = .next (s1.reply c St.ok 0 [])) ∧
  (∀ (s : State) (l : Fin 36) (at_ id n : Nat), (s.link l).state = .up → s.rst.ready = true → s.census.head.state = .armed →
    s.census.head.id ≠ id → Completes (.censusForward l at_ id n) s (fun t => t.cores = s.cores ∧ t.jobs = s.jobs ∧
      t.census = { s.census with head := { s.census.head with refused := s.census.head.refused + 1 } })) ∧
  (∀ (s : State) (l : Fin 36) (at_ id n : Nat), (s.link l).state = .up → s.rst.ready = true → s.census.head.state ≠ .armed →
    s.census.head.id ≠ id ∨ s.census.head.state = .idle →
    (s.time.now + 1000 ≤ at_ → Completes (.censusForward l at_ id n) s (fun t => t.census.head =
      { state := .armed, id := id, t := at_, refused := 0 } ∧ t.census.prev = s.census.head ∧ t.cores = s.cores ∧ t.jobs = s.jobs)) ∧
    (at_ < s.time.now + 1000 → Completes (.censusForward l at_ id n) s (fun t => t.census.head =
      { state := .missed, id := id, t := at_, refused := 0 } ∧ t.census.shadow = s.census.shadow ∧ t.cores = s.cores))) ∧
  (∀ (s : State), s.census.head.state = .armed → s.census.head.t ≤ s.time.now → Completes .censusLatch s (fun t =>
    t.census.head = { s.census.head with state := .latched } ∧ t.census.latch = some s.time.now ∧ t.census.apart = s.apart ∧ { t with census := s.census } = s ∧
    t.census.shadow.cells = (s.image.filter (fun e => e.2 != 0)).map (fun e => (e.1 / 4, e.2)))) ∧
  (∀ (s s1 : State) (via : Via) (c : Cmd), Runs s via 0x0903 (fun _ => true) s1 c → c.ownPart = none → c.p 0 % 64 = 0 → c.p 1 % 64 = 0 →
    c.p 0 + c.p 1 ≤ 131072 → exec (.censusRead via) s = .next (s1.doneInto c (c.addr 2)
      (wordsToBytes ((List.range (c.p 1 / 4)).map (fun i => s1.census.word (c.p 0 / 4 + i)))) [s1.census.header.getD 0 0])) ∧
  (∀ (s s1 : State) (via : Via) (c : Cmd) (p : Nat), Runs s via 0x0903 (fun _ => true) s1 c → c.ownPart = some p → c.p 0 % 64 = 0 →
    c.p 1 % 64 = 0 → c.p 0 + c.p 1 ≤ 131072 →
    ((0x1000 + 0x2000 * p ≤ c.p 0 ∧ c.p 0 + c.p 1 ≤ 0x3000 + 0x2000 * p) ∨ (c.p 0 = 0x19000 + 64 * (p / 4) ∧ c.p 1 = 64) → exec (.censusRead via) s = .next (s1.doneInto c (c.addr 2)
      (wordsToBytes ((List.range (c.p 1 / 4)).map (fun i => if c.p 0 / 4 + i < 0x6400 ∨ (c.p 0 / 4 + i - 0x6400) / 4 = p then
        s1.census.word (c.p 0 / 4 + i) else 0))) [s1.census.header.getD 0 0])) ∧
    (c.p 0 < 0x1000 → exec (.censusRead via) s = .next (s1.reply c St.denied 1 [])))

/-- The management transports and the JTAG port. The I3C target takes one dynamic address and then enables its interrupts; an MCTP Set
Endpoint ID gives the endpoint its EID and is answered, Get Endpoint ID answers it; a slice of data is noted for its command; a TCK
edge moves an open TAP and drives TDO in its shift states, does nothing to one that a fuse closed, and TRST_N resets it. -/
def Obligations.TowpathAndJtagComplete : Prop :=
  (∀ (s : State) (dasa : Bool) (a : BitVec 7), s.towOpen = true → s.mgmt.i3c = none →
    exec (.i3cAddressAssign dasa a) s = .next { s with mgmt := { s.mgmt with i3c := some a.toNat } }) ∧
  (∀ (s : State) (a : Nat), s.towOpen = true → s.mgmt.i3c = some a → exec .i3cEnec s = .next { s with mgmt := { s.mgmt with ibi := true } }) ∧
  (∀ (s : State) (ep : Fin 2) (eid : Byte), s.towOpen = true → s.pair.state ≠ .fenced → (ep.val = 0 → s.mgmt.i3c ≠ none) →
    8 ≤ eid.toNat → eid.toNat ≤ 0xFE → Completes (.mctpControlMessage ep [0x00, 0x80, 0x01, 0x00, eid]) s (fun t =>
      (t.mgmt.ep ep).eid = some eid.toNat ∧ (t.mgmt.ep ep).seen = (s.mgmt.ep ep).seen ∧
      t.out = s.out ++ [.mctp ep [0x00, 0x00, 0x01, 0x00, 0x00, eid, 0x00]] ∧ { t with mgmt := s.mgmt, out := s.out } = s)) ∧
  (∀ (s : State) (ep : Fin 2), s.towOpen = true → s.pair.state ≠ .fenced → (ep.val = 0 → s.mgmt.i3c ≠ none) →
    Completes (.mctpControlMessage ep [0x00, 0x80, 0x02]) s (fun t => t.out = s.out ++ [.mctp ep [0x00, 0x00, 0x02, 0x00,
      BitVec.ofNat 8 ((s.mgmt.ep ep).eid.getD 0), 0x00, 0x00]] ∧ { t with mgmt := s.mgmt, out := s.out } = s)) ∧
  (∀ (s : State) (ep : Fin 2) (q : Word) (off : Nat) (data : List Byte), s.towOpen = true → s.pair.state ≠ .fenced →
    data ≠ [] → data.length ≤ 1024 → Completes (.mctpDataToKnarum ep q off data) s (fun t => { t with mgmt := s.mgmt } = s ∧
      (t.mgmt.ep ep).dataIn = (s.mgmt.ep ep).dataIn.map (fun d =>
        if d.seq = q then { d with got := d.got ++ [(off, data.length)] } else d))) ∧
  (∀ (s : State) (tms tdi : Bool), bitAt s.flash.sealFuses 1 = false → s.rst.porLow = false → Completes (.jtagTckEdge tms tdi) s (fun t =>
    t.jtag.tap = s.jtag.tap.next tms ∧ (t.jtag.tdo.isSome = true ↔ t.jtag.tap = .drShift ∨ t.jtag.tap = .irShift) ∧
    t.out = s.out ++ [.tdo t.jtag.tdo] ∧ { t with jtag := s.jtag, free := s.free, out := s.out } = s)) ∧
  (∀ (s : State) (tms tdi : Bool), bitAt s.flash.sealFuses 1 = true → exec (.jtagTckEdge tms tdi) s = .next s) ∧
  (∀ s : State, exec .jtagTapReset s = .next { s with jtag := {} })
end

