-- ==== Sys2Proof/Laws/Table.lean ====
section
/-! SUPPORT. Reading and writing sparse tables and memories: a read after a write to the same place gives the value written, a write
leaves every other place alone, and every memory operation keeps the canonical form. -/

namespace Sys2Proof

variable {α : Type} [DecidableEq α]

/-- What a written table lists at a key. -/
theorem Table.find_put (d : α) (t : Table α) (k j : Nat) (v : α) :
    (Table.put d t k v).find? (fun e => e.1 == j) =
      if j = k then (if v = d then none else some (k, v)) else t.find? (fun e => e.1 == j) := by
  have sel (p : Nat → Bool) (h : p j = true) : (t.filter (fun e => p e.1)).find? (fun e => e.1 == j) = t.find? (fun e => e.1 == j) := by
    rw [List.find?_filter]; congr 1; funext e
    by_cases he : e.1 = j <;> simp [he, h]
  have out (p : Nat → Bool) (h : p j = false) : (t.filter (fun e => p e.1)).find? (fun e => e.1 == j) = none := by
    rw [List.find?_filter, List.find?_eq_none]; intro e _
    by_cases he : e.1 = j <;> simp [he, h]
  have mid : (if v = d then [] else [(k, v)] : List (Nat × α)).find? (fun e => e.1 == j) =
      if j = k then (if v = d then none else some (k, v)) else none := by
    by_cases hv : v = d <;> by_cases hj : j = k <;> simp [hv, hj]; omega
  unfold Table.put
  rw [List.find?_append, List.find?_append, mid]
  rcases Nat.lt_trichotomy j k with h | h | h
  · rw [sel (fun n => decide (n < k)) (by simpa), out (fun n => decide (k < n)) (by simp; omega), if_neg (by omega), if_neg (by omega)]
    simp
  · subst h
    rw [out (fun n => decide (n < j)) (by simp), out (fun n => decide (j < n)) (by simp)]
    simp
  · rw [out (fun n => decide (n < k)) (by simp; omega), sel (fun n => decide (k < n)) (by simpa), if_neg (by omega), if_neg (by omega)]
    simp

/-- A read after a write; it holds of every table, canonical or not, and of every reading of the unlisted keys. -/
theorem Table.look_put' (d d' : α) (t : Table α) (k j : Nat) (v : α) (h : j = k → d' = d) :
    Table.look d' (Table.put d t k v) j = if j = k then v else Table.look d' t j := by
  unfold Table.look
  rw [Table.find_put]
  by_cases hj : j = k
  · rw [if_pos hj, if_pos hj, h hj]
    by_cases hv : v = d <;> simp [hv]
  · rw [if_neg hj, if_neg hj]

@[simp] theorem Table.look_put (d : α) (t : Table α) (k j : Nat) (v : α) :
    Table.look d (Table.put d t k v) j = if j = k then v else Table.look d t j :=
  Table.look_put' d d t k j v (fun _ => rfl)

/-- Changing one key. -/
@[simp] theorem Table.look_upd (d : α) (t : Table α) (k j : Nat) (f : α → α) :
    Table.look d (Table.upd d t k f) j = if j = k then f (Table.look d t k) else Table.look d t j := by
  simp [Table.upd]

omit [DecidableEq α] in
/-- The canonical form as lists say it: keys rise strictly. -/
theorem Table.rising_iff (t : Table α) : Table.rising t = true ↔ t.Pairwise (fun a b => a.1 < b.1) := by
  induction t with
  | nil => simp [Table.rising]
  | cons a t ih =>
    cases t with
    | nil => simp [Table.rising]
    | cons b t =>
      rw [Table.rising, Bool.and_eq_true, decide_eq_true_iff, ih]
      constructor
      · rintro ⟨h, hp⟩
        refine List.pairwise_cons.2 ⟨?_, hp⟩
        intro c hc
        rcases List.mem_cons.1 hc with rfl | hc
        · exact h
        · exact Nat.lt_trans h ((List.pairwise_cons.1 hp).1 c hc)
      · intro hp
        have := List.pairwise_cons.1 hp
        exact ⟨this.1 b (by simp), this.2⟩

/-- A write keeps the canonical form. -/
theorem Table.wf_put (d : Nat → α) (t : Table α) (k : Nat) (v : α) (h : Table.wf d t = true) :
    Table.wf d (Table.put (d k) t k v) = true := by
  unfold Table.wf at h ⊢
  rw [Bool.and_eq_true, Table.rising_iff, List.all_eq_true] at h ⊢
  obtain ⟨hp, hd⟩ := h
  unfold Table.put
  constructor
  · rw [List.pairwise_append, List.pairwise_append]
    refine ⟨⟨hp.filter _, ?_, ?_⟩, hp.filter _, ?_⟩
    · split <;> simp
    · intro a ha b hb
      simp at ha
      split at hb <;> simp at hb
      subst hb; exact ha.2
    · intro a ha b hb
      simp at hb
      rcases List.mem_append.1 ha with ha | ha
      · simp at ha; omega
      · split at ha <;> simp at ha
        subst ha; exact hb.2
  · intro e he
    rcases List.mem_append.1 he with he | he
    · rcases List.mem_append.1 he with he | he
      · exact hd e (List.mem_filter.1 he).1
      · split at he <;> simp at he
        subst he; simpa
    · exact hd e (List.mem_filter.1 he).1

namespace Machine

/-! ## Memories -/

@[simp] theorem Mem.unlisted_write (m : Mem) (a : Nat) (b : Byte) (c : Nat) : (m.write a b).unlisted c = m.unlisted c := rfl
@[simp] theorem WMem.unlisted_write (m : WMem) (k : Nat) (w : Word) (j : Nat) : (m.write k w).unlisted j = m.unlisted j := rfl

/-- A byte read after a byte written. -/
@[simp] theorem Mem.read_write (m : Mem) (a x : Nat) (b : Byte) : (m.write a b).read x = if x = a then b else m.read x :=
  Table.look_put' _ _ _ _ _ _ (fun h => by rw [h]; rfl)
@[simp] theorem WMem.read_write (m : WMem) (k x : Nat) (w : Word) : (m.write k w).read x = if x = k then w else m.read x :=
  Table.look_put' _ _ _ _ _ _ (fun h => by rw [h]; rfl)

/-- A byte read after bytes written from an address upward. -/
theorem Mem.read_writeN (m : Mem) (a x : Nat) (bs : List Byte) :
    (m.writeN a bs).read x = if a ≤ x ∧ x < a + bs.length then bs.getD (x - a) 0 else m.read x := by
  induction bs generalizing m a with
  | nil => simp [Mem.writeN]
  | cons b bs ih =>
    rw [Mem.writeN, ih, Mem.read_write, List.length_cons]
    by_cases hx : x = a
    · subst hx; simp
    · by_cases h : a + 1 ≤ x ∧ x < a + 1 + bs.length
      · rw [if_pos h, if_pos (by omega), show x - a = (x - (a + 1)) + 1 by omega]; simp
      · rw [if_neg h, if_neg hx, if_neg (by omega)]
theorem WMem.read_writeN (m : WMem) (k x : Nat) (ws : List Word) :
    (m.writeN k ws).read x = if k ≤ x ∧ x < k + ws.length then ws.getD (x - k) 0 else m.read x := by
  induction ws generalizing m k with
  | nil => simp [WMem.writeN]
  | cons b bs ih =>
    rw [WMem.writeN, ih, WMem.read_write, List.length_cons]
    by_cases hx : x = k
    · subst hx; simp
    · by_cases h : k + 1 ≤ x ∧ x < k + 1 + bs.length
      · rw [if_pos h, if_pos (by omega), show x - k = (x - (k + 1)) + 1 by omega]; simp
      · rw [if_neg h, if_neg hx, if_neg (by omega)]

/-- A byte outside the written addresses reads as before. -/
theorem Mem.read_writes_out (m : Mem) (x : Nat) (bs : List (Nat × Byte)) (h : ∀ e ∈ bs, e.1 ≠ x) :
    (m.writes bs).read x = m.read x := by
  induction bs generalizing m with
  | nil => rfl
  | cons e bs ih =>
    show ((m.write e.1 e.2).writes bs).read x = _
    rw [ih _ (fun b hb => h b (List.mem_cons_of_mem _ hb)), Mem.read_write, if_neg (fun hx => h e (by simp) hx.symm)]

/-- Every memory operation keeps the canonical form. -/
theorem Mem.wf_write (m : Mem) (a : Nat) (b : Byte) (h : m.wf = true) : (m.write a b).wf = true :=
  Table.wf_put m.unlisted m.cells a b h
theorem Mem.wf_writeN (m : Mem) (a : Nat) (bs : List Byte) (h : m.wf = true) : (m.writeN a bs).wf = true := by
  induction bs generalizing m a with
  | nil => exact h
  | cons b bs ih => exact ih _ _ (Mem.wf_write m a b h)
theorem Mem.wf_writes (m : Mem) (bs : List (Nat × Byte)) (h : m.wf = true) : (m.writes bs).wf = true := by
  induction bs generalizing m with
  | nil => exact h
  | cons e bs ih => exact ih _ (Mem.wf_write m e.1 e.2 h)
theorem WMem.wf_write (m : WMem) (k : Nat) (w : Word) (h : m.wf = true) : (m.write k w).wf = true :=
  Table.wf_put m.unlisted m.cells k w h
theorem Mem.wf_lose (m : Mem) (e : Nat) : (m.lose e).wf = true := rfl

end Machine

end Sys2Proof
end

