-- ==== Sys2Proof/Laws/State.lean ====
section
/-! SUPPORT. What each named update of the state does: the entry it writes reads as written, every other entry and every other
field is as before. -/

namespace Sys2Proof.Machine

@[simp] theorem CoreSt.queue_setQueue (c : CoreSt) (q : Nat) (es : List QEntry) (n : Nat) :
    (c.setQueue q es).queue n = if n = q then es else c.queue n := by simp [CoreSt.queue, CoreSt.setQueue]
@[simp] theorem CoreSt.lock_setLock (c : CoreSt) (i : Nat) (l : Lock) (n : Nat) :
    (c.setLock i l).lock n = if n = i then l else c.lock n := by simp [CoreSt.lock, CoreSt.setLock]

@[simp] theorem State.core_setCore (s : State) (k : Nat) (v : CoreSt) (n : Nat) :
    (s.setCore k v).core n = if n = k then v else s.core n := by simp [State.core, State.setCore]

@[simp] theorem State.core_modCore (s : State) (k : Nat) (f : CoreSt → CoreSt) (n : Nat) :
    (s.modCore k f).core n = if n = k then f (s.core k) else s.core n := by simp [State.modCore]

@[simp] theorem State.setCore_frame (s : State) (k : Nat) (v : CoreSt) :
    (s.setCore k v).time = s.time ∧ (s.setCore k v).coreMap = s.coreMap ∧ (s.setCore k v).health = s.health ∧
    (s.setCore k v).parts = s.parts ∧ (s.setCore k v).checks = s.checks ∧ (s.setCore k v).jobs = s.jobs ∧
    (s.setCore k v).tele = s.tele ∧ (s.setCore k v).steering = s.steering ∧ (s.setCore k v).saves = s.saves ∧
    (s.setCore k v).pools = s.pools ∧ (s.setCore k v).kvSlots = s.kvSlots ∧ (s.setCore k v).kvSent = s.kvSent ∧
    (s.setCore k v).kvInputs = s.kvInputs ∧ (s.setCore k v).fns = s.fns ∧ (s.setCore k v).numVfs = s.numVfs ∧
    (s.setCore k v).vfEnable = s.vfEnable ∧ (s.setCore k v).msixOn = s.msixOn ∧ (s.setCore k v).msixHold = s.msixHold ∧
    (s.setCore k v).msixPend = s.msixPend ∧ (s.setCore k v).config = s.config ∧ (s.setCore k v).msixRam = s.msixRam ∧
    (s.setCore k v).streams = s.streams ∧ (s.setCore k v).gens = s.gens ∧ (s.setCore k v).accepted = s.accepted ∧
    (s.setCore k v).waits = s.waits ∧ (s.setCore k v).hbmStacks = s.hbmStacks ∧ (s.setCore k v).hbm = s.hbm ∧
    (s.setCore k v).hbmTags = s.hbmTags ∧ (s.setCore k v).sluice = s.sluice ∧ (s.setCore k v).ranges = s.ranges ∧
    (s.setCore k v).loaded = s.loaded ∧ (s.setCore k v).links = s.links ∧ (s.setCore k v).route = s.route ∧
    (s.setCore k v).subst = s.subst ∧ (s.setCore k v).pair = s.pair ∧ (s.setCore k v).wharves = s.wharves ∧
    (s.setCore k v).refs = s.refs ∧ (s.setCore k v).slipSec = s.slipSec ∧ (s.setCore k v).integ = s.integ ∧
    (s.setCore k v).flash = s.flash ∧ (s.setCore k v).rst = s.rst ∧ (s.setCore k v).mgmt = s.mgmt ∧
    (s.setCore k v).census = s.census ∧ (s.setCore k v).jtag = s.jtag ∧ (s.setCore k v).freeing = s.freeing ∧
    (s.setCore k v).free = s.free ∧ (s.setCore k v).out = s.out ∧ (s.setCore k v).pending = s.pending := by
  simp only [State.setCore, and_self]

@[simp] theorem State.modCore_frame (s : State) (k : Nat) (f : CoreSt → CoreSt) :
    (s.modCore k f).time = s.time ∧ (s.modCore k f).coreMap = s.coreMap ∧ (s.modCore k f).health = s.health ∧
    (s.modCore k f).parts = s.parts ∧ (s.modCore k f).checks = s.checks ∧ (s.modCore k f).jobs = s.jobs ∧
    (s.modCore k f).tele = s.tele ∧ (s.modCore k f).steering = s.steering ∧ (s.modCore k f).saves = s.saves ∧
    (s.modCore k f).pools = s.pools ∧ (s.modCore k f).kvSlots = s.kvSlots ∧ (s.modCore k f).kvSent = s.kvSent ∧
    (s.modCore k f).kvInputs = s.kvInputs ∧ (s.modCore k f).fns = s.fns ∧ (s.modCore k f).numVfs = s.numVfs ∧
    (s.modCore k f).vfEnable = s.vfEnable ∧ (s.modCore k f).msixOn = s.msixOn ∧ (s.modCore k f).msixHold = s.msixHold ∧
    (s.modCore k f).msixPend = s.msixPend ∧ (s.modCore k f).config = s.config ∧ (s.modCore k f).msixRam = s.msixRam ∧
    (s.modCore k f).streams = s.streams ∧ (s.modCore k f).gens = s.gens ∧ (s.modCore k f).accepted = s.accepted ∧
    (s.modCore k f).waits = s.waits ∧ (s.modCore k f).hbmStacks = s.hbmStacks ∧ (s.modCore k f).hbm = s.hbm ∧
    (s.modCore k f).hbmTags = s.hbmTags ∧ (s.modCore k f).sluice = s.sluice ∧ (s.modCore k f).ranges = s.ranges ∧
    (s.modCore k f).loaded = s.loaded ∧ (s.modCore k f).links = s.links ∧ (s.modCore k f).route = s.route ∧
    (s.modCore k f).subst = s.subst ∧ (s.modCore k f).pair = s.pair ∧ (s.modCore k f).wharves = s.wharves ∧
    (s.modCore k f).refs = s.refs ∧ (s.modCore k f).slipSec = s.slipSec ∧ (s.modCore k f).integ = s.integ ∧
    (s.modCore k f).flash = s.flash ∧ (s.modCore k f).rst = s.rst ∧ (s.modCore k f).mgmt = s.mgmt ∧
    (s.modCore k f).census = s.census ∧ (s.modCore k f).jtag = s.jtag ∧ (s.modCore k f).freeing = s.freeing ∧
    (s.modCore k f).free = s.free ∧ (s.modCore k f).out = s.out ∧ (s.modCore k f).pending = s.pending := by
  simp only [State.modCore, State.setCore, and_self]

@[simp] theorem State.part_setPart (s : State) (k : Nat) (v : Part) (n : Nat) :
    (s.setPart k v).part n = if n = k then v else s.part n := by simp [State.part, State.setPart]

@[simp] theorem State.part_modPart (s : State) (k : Nat) (f : Part → Part) (n : Nat) :
    (s.modPart k f).part n = if n = k then f (s.part k) else s.part n := by simp [State.modPart]

@[simp] theorem State.setPart_frame (s : State) (k : Nat) (v : Part) :
    (s.setPart k v).time = s.time ∧ (s.setPart k v).coreMap = s.coreMap ∧ (s.setPart k v).cores = s.cores ∧
    (s.setPart k v).health = s.health ∧ (s.setPart k v).checks = s.checks ∧ (s.setPart k v).jobs = s.jobs ∧
    (s.setPart k v).tele = s.tele ∧ (s.setPart k v).steering = s.steering ∧ (s.setPart k v).saves = s.saves ∧
    (s.setPart k v).pools = s.pools ∧ (s.setPart k v).kvSlots = s.kvSlots ∧ (s.setPart k v).kvSent = s.kvSent ∧
    (s.setPart k v).kvInputs = s.kvInputs ∧ (s.setPart k v).fns = s.fns ∧ (s.setPart k v).numVfs = s.numVfs ∧
    (s.setPart k v).vfEnable = s.vfEnable ∧ (s.setPart k v).msixOn = s.msixOn ∧ (s.setPart k v).msixHold = s.msixHold ∧
    (s.setPart k v).msixPend = s.msixPend ∧ (s.setPart k v).config = s.config ∧ (s.setPart k v).msixRam = s.msixRam ∧
    (s.setPart k v).streams = s.streams ∧ (s.setPart k v).gens = s.gens ∧ (s.setPart k v).accepted = s.accepted ∧
    (s.setPart k v).waits = s.waits ∧ (s.setPart k v).hbmStacks = s.hbmStacks ∧ (s.setPart k v).hbm = s.hbm ∧
    (s.setPart k v).hbmTags = s.hbmTags ∧ (s.setPart k v).sluice = s.sluice ∧ (s.setPart k v).ranges = s.ranges ∧
    (s.setPart k v).loaded = s.loaded ∧ (s.setPart k v).links = s.links ∧ (s.setPart k v).route = s.route ∧
    (s.setPart k v).subst = s.subst ∧ (s.setPart k v).pair = s.pair ∧ (s.setPart k v).wharves = s.wharves ∧
    (s.setPart k v).refs = s.refs ∧ (s.setPart k v).slipSec = s.slipSec ∧ (s.setPart k v).integ = s.integ ∧
    (s.setPart k v).flash = s.flash ∧ (s.setPart k v).rst = s.rst ∧ (s.setPart k v).mgmt = s.mgmt ∧
    (s.setPart k v).census = s.census ∧ (s.setPart k v).jtag = s.jtag ∧ (s.setPart k v).freeing = s.freeing ∧
    (s.setPart k v).free = s.free ∧ (s.setPart k v).out = s.out ∧ (s.setPart k v).pending = s.pending := by
  simp only [State.setPart, and_self]

@[simp] theorem State.modPart_frame (s : State) (k : Nat) (f : Part → Part) :
    (s.modPart k f).time = s.time ∧ (s.modPart k f).coreMap = s.coreMap ∧ (s.modPart k f).cores = s.cores ∧
    (s.modPart k f).health = s.health ∧ (s.modPart k f).checks = s.checks ∧ (s.modPart k f).jobs = s.jobs ∧
    (s.modPart k f).tele = s.tele ∧ (s.modPart k f).steering = s.steering ∧ (s.modPart k f).saves = s.saves ∧
    (s.modPart k f).pools = s.pools ∧ (s.modPart k f).kvSlots = s.kvSlots ∧ (s.modPart k f).kvSent = s.kvSent ∧
    (s.modPart k f).kvInputs = s.kvInputs ∧ (s.modPart k f).fns = s.fns ∧ (s.modPart k f).numVfs = s.numVfs ∧
    (s.modPart k f).vfEnable = s.vfEnable ∧ (s.modPart k f).msixOn = s.msixOn ∧ (s.modPart k f).msixHold = s.msixHold ∧
    (s.modPart k f).msixPend = s.msixPend ∧ (s.modPart k f).config = s.config ∧ (s.modPart k f).msixRam = s.msixRam ∧
    (s.modPart k f).streams = s.streams ∧ (s.modPart k f).gens = s.gens ∧ (s.modPart k f).accepted = s.accepted ∧
    (s.modPart k f).waits = s.waits ∧ (s.modPart k f).hbmStacks = s.hbmStacks ∧ (s.modPart k f).hbm = s.hbm ∧
    (s.modPart k f).hbmTags = s.hbmTags ∧ (s.modPart k f).sluice = s.sluice ∧ (s.modPart k f).ranges = s.ranges ∧
    (s.modPart k f).loaded = s.loaded ∧ (s.modPart k f).links = s.links ∧ (s.modPart k f).route = s.route ∧
    (s.modPart k f).subst = s.subst ∧ (s.modPart k f).pair = s.pair ∧ (s.modPart k f).wharves = s.wharves ∧
    (s.modPart k f).refs = s.refs ∧ (s.modPart k f).slipSec = s.slipSec ∧ (s.modPart k f).integ = s.integ ∧
    (s.modPart k f).flash = s.flash ∧ (s.modPart k f).rst = s.rst ∧ (s.modPart k f).mgmt = s.mgmt ∧
    (s.modPart k f).census = s.census ∧ (s.modPart k f).jtag = s.jtag ∧ (s.modPart k f).freeing = s.freeing ∧
    (s.modPart k f).free = s.free ∧ (s.modPart k f).out = s.out ∧ (s.modPart k f).pending = s.pending := by
  simp only [State.modPart, State.setPart, and_self]

@[simp] theorem State.check_setCheck (s : State) (k : Nat) (v : PartCheck) (n : Nat) :
    (s.setCheck k v).check n = if n = k then v else s.check n := by simp [State.check, State.setCheck]

@[simp] theorem State.check_modCheck (s : State) (k : Nat) (f : PartCheck → PartCheck) (n : Nat) :
    (s.modCheck k f).check n = if n = k then f (s.check k) else s.check n := by simp [State.modCheck]

@[simp] theorem State.setCheck_frame (s : State) (k : Nat) (v : PartCheck) :
    (s.setCheck k v).time = s.time ∧ (s.setCheck k v).coreMap = s.coreMap ∧ (s.setCheck k v).cores = s.cores ∧
    (s.setCheck k v).health = s.health ∧ (s.setCheck k v).parts = s.parts ∧ (s.setCheck k v).jobs = s.jobs ∧
    (s.setCheck k v).tele = s.tele ∧ (s.setCheck k v).steering = s.steering ∧ (s.setCheck k v).saves = s.saves ∧
    (s.setCheck k v).pools = s.pools ∧ (s.setCheck k v).kvSlots = s.kvSlots ∧ (s.setCheck k v).kvSent = s.kvSent ∧
    (s.setCheck k v).kvInputs = s.kvInputs ∧ (s.setCheck k v).fns = s.fns ∧ (s.setCheck k v).numVfs = s.numVfs ∧
    (s.setCheck k v).vfEnable = s.vfEnable ∧ (s.setCheck k v).msixOn = s.msixOn ∧ (s.setCheck k v).msixHold = s.msixHold ∧
    (s.setCheck k v).msixPend = s.msixPend ∧ (s.setCheck k v).config = s.config ∧ (s.setCheck k v).msixRam = s.msixRam ∧
    (s.setCheck k v).streams = s.streams ∧ (s.setCheck k v).gens = s.gens ∧ (s.setCheck k v).accepted = s.accepted ∧
    (s.setCheck k v).waits = s.waits ∧ (s.setCheck k v).hbmStacks = s.hbmStacks ∧ (s.setCheck k v).hbm = s.hbm ∧
    (s.setCheck k v).hbmTags = s.hbmTags ∧ (s.setCheck k v).sluice = s.sluice ∧ (s.setCheck k v).ranges = s.ranges ∧
    (s.setCheck k v).loaded = s.loaded ∧ (s.setCheck k v).links = s.links ∧ (s.setCheck k v).route = s.route ∧
    (s.setCheck k v).subst = s.subst ∧ (s.setCheck k v).pair = s.pair ∧ (s.setCheck k v).wharves = s.wharves ∧
    (s.setCheck k v).refs = s.refs ∧ (s.setCheck k v).slipSec = s.slipSec ∧ (s.setCheck k v).integ = s.integ ∧
    (s.setCheck k v).flash = s.flash ∧ (s.setCheck k v).rst = s.rst ∧ (s.setCheck k v).mgmt = s.mgmt ∧
    (s.setCheck k v).census = s.census ∧ (s.setCheck k v).jtag = s.jtag ∧ (s.setCheck k v).freeing = s.freeing ∧
    (s.setCheck k v).free = s.free ∧ (s.setCheck k v).out = s.out ∧ (s.setCheck k v).pending = s.pending := by
  simp only [State.setCheck, and_self]

@[simp] theorem State.modCheck_frame (s : State) (k : Nat) (f : PartCheck → PartCheck) :
    (s.modCheck k f).time = s.time ∧ (s.modCheck k f).coreMap = s.coreMap ∧ (s.modCheck k f).cores = s.cores ∧
    (s.modCheck k f).health = s.health ∧ (s.modCheck k f).parts = s.parts ∧ (s.modCheck k f).jobs = s.jobs ∧
    (s.modCheck k f).tele = s.tele ∧ (s.modCheck k f).steering = s.steering ∧ (s.modCheck k f).saves = s.saves ∧
    (s.modCheck k f).pools = s.pools ∧ (s.modCheck k f).kvSlots = s.kvSlots ∧ (s.modCheck k f).kvSent = s.kvSent ∧
    (s.modCheck k f).kvInputs = s.kvInputs ∧ (s.modCheck k f).fns = s.fns ∧ (s.modCheck k f).numVfs = s.numVfs ∧
    (s.modCheck k f).vfEnable = s.vfEnable ∧ (s.modCheck k f).msixOn = s.msixOn ∧ (s.modCheck k f).msixHold = s.msixHold ∧
    (s.modCheck k f).msixPend = s.msixPend ∧ (s.modCheck k f).config = s.config ∧ (s.modCheck k f).msixRam = s.msixRam ∧
    (s.modCheck k f).streams = s.streams ∧ (s.modCheck k f).gens = s.gens ∧ (s.modCheck k f).accepted = s.accepted ∧
    (s.modCheck k f).waits = s.waits ∧ (s.modCheck k f).hbmStacks = s.hbmStacks ∧ (s.modCheck k f).hbm = s.hbm ∧
    (s.modCheck k f).hbmTags = s.hbmTags ∧ (s.modCheck k f).sluice = s.sluice ∧ (s.modCheck k f).ranges = s.ranges ∧
    (s.modCheck k f).loaded = s.loaded ∧ (s.modCheck k f).links = s.links ∧ (s.modCheck k f).route = s.route ∧
    (s.modCheck k f).subst = s.subst ∧ (s.modCheck k f).pair = s.pair ∧ (s.modCheck k f).wharves = s.wharves ∧
    (s.modCheck k f).refs = s.refs ∧ (s.modCheck k f).slipSec = s.slipSec ∧ (s.modCheck k f).integ = s.integ ∧
    (s.modCheck k f).flash = s.flash ∧ (s.modCheck k f).rst = s.rst ∧ (s.modCheck k f).mgmt = s.mgmt ∧
    (s.modCheck k f).census = s.census ∧ (s.modCheck k f).jtag = s.jtag ∧ (s.modCheck k f).freeing = s.freeing ∧
    (s.modCheck k f).free = s.free ∧ (s.modCheck k f).out = s.out ∧ (s.modCheck k f).pending = s.pending := by
  simp only [State.modCheck, State.setCheck, and_self]

@[simp] theorem State.job_setJob (s : State) (k : Nat) (v : Job) (n : Nat) :
    (s.setJob k v).job n = if n = k then v else s.job n := by simp [State.job, State.setJob]

@[simp] theorem State.job_modJob (s : State) (k : Nat) (f : Job → Job) (n : Nat) :
    (s.modJob k f).job n = if n = k then f (s.job k) else s.job n := by simp [State.modJob]

@[simp] theorem State.setJob_frame (s : State) (k : Nat) (v : Job) :
    (s.setJob k v).time = s.time ∧ (s.setJob k v).coreMap = s.coreMap ∧ (s.setJob k v).cores = s.cores ∧
    (s.setJob k v).health = s.health ∧ (s.setJob k v).parts = s.parts ∧ (s.setJob k v).checks = s.checks ∧
    (s.setJob k v).tele = s.tele ∧ (s.setJob k v).steering = s.steering ∧ (s.setJob k v).saves = s.saves ∧
    (s.setJob k v).pools = s.pools ∧ (s.setJob k v).kvSlots = s.kvSlots ∧ (s.setJob k v).kvSent = s.kvSent ∧
    (s.setJob k v).kvInputs = s.kvInputs ∧ (s.setJob k v).fns = s.fns ∧ (s.setJob k v).numVfs = s.numVfs ∧
    (s.setJob k v).vfEnable = s.vfEnable ∧ (s.setJob k v).msixOn = s.msixOn ∧ (s.setJob k v).msixHold = s.msixHold ∧
    (s.setJob k v).msixPend = s.msixPend ∧ (s.setJob k v).config = s.config ∧ (s.setJob k v).msixRam = s.msixRam ∧
    (s.setJob k v).streams = s.streams ∧ (s.setJob k v).gens = s.gens ∧ (s.setJob k v).accepted = s.accepted ∧
    (s.setJob k v).waits = s.waits ∧ (s.setJob k v).hbmStacks = s.hbmStacks ∧ (s.setJob k v).hbm = s.hbm ∧
    (s.setJob k v).hbmTags = s.hbmTags ∧ (s.setJob k v).sluice = s.sluice ∧ (s.setJob k v).ranges = s.ranges ∧
    (s.setJob k v).loaded = s.loaded ∧ (s.setJob k v).links = s.links ∧ (s.setJob k v).route = s.route ∧
    (s.setJob k v).subst = s.subst ∧ (s.setJob k v).pair = s.pair ∧ (s.setJob k v).wharves = s.wharves ∧
    (s.setJob k v).refs = s.refs ∧ (s.setJob k v).slipSec = s.slipSec ∧ (s.setJob k v).integ = s.integ ∧
    (s.setJob k v).flash = s.flash ∧ (s.setJob k v).rst = s.rst ∧ (s.setJob k v).mgmt = s.mgmt ∧ (s.setJob k v).census = s.census ∧
    (s.setJob k v).jtag = s.jtag ∧ (s.setJob k v).freeing = s.freeing ∧ (s.setJob k v).free = s.free ∧ (s.setJob k v).out = s.out ∧
    (s.setJob k v).pending = s.pending := by
  simp only [State.setJob, and_self]

@[simp] theorem State.modJob_frame (s : State) (k : Nat) (f : Job → Job) :
    (s.modJob k f).time = s.time ∧ (s.modJob k f).coreMap = s.coreMap ∧ (s.modJob k f).cores = s.cores ∧
    (s.modJob k f).health = s.health ∧ (s.modJob k f).parts = s.parts ∧ (s.modJob k f).checks = s.checks ∧
    (s.modJob k f).tele = s.tele ∧ (s.modJob k f).steering = s.steering ∧ (s.modJob k f).saves = s.saves ∧
    (s.modJob k f).pools = s.pools ∧ (s.modJob k f).kvSlots = s.kvSlots ∧ (s.modJob k f).kvSent = s.kvSent ∧
    (s.modJob k f).kvInputs = s.kvInputs ∧ (s.modJob k f).fns = s.fns ∧ (s.modJob k f).numVfs = s.numVfs ∧
    (s.modJob k f).vfEnable = s.vfEnable ∧ (s.modJob k f).msixOn = s.msixOn ∧ (s.modJob k f).msixHold = s.msixHold ∧
    (s.modJob k f).msixPend = s.msixPend ∧ (s.modJob k f).config = s.config ∧ (s.modJob k f).msixRam = s.msixRam ∧
    (s.modJob k f).streams = s.streams ∧ (s.modJob k f).gens = s.gens ∧ (s.modJob k f).accepted = s.accepted ∧
    (s.modJob k f).waits = s.waits ∧ (s.modJob k f).hbmStacks = s.hbmStacks ∧ (s.modJob k f).hbm = s.hbm ∧
    (s.modJob k f).hbmTags = s.hbmTags ∧ (s.modJob k f).sluice = s.sluice ∧ (s.modJob k f).ranges = s.ranges ∧
    (s.modJob k f).loaded = s.loaded ∧ (s.modJob k f).links = s.links ∧ (s.modJob k f).route = s.route ∧
    (s.modJob k f).subst = s.subst ∧ (s.modJob k f).pair = s.pair ∧ (s.modJob k f).wharves = s.wharves ∧
    (s.modJob k f).refs = s.refs ∧ (s.modJob k f).slipSec = s.slipSec ∧ (s.modJob k f).integ = s.integ ∧
    (s.modJob k f).flash = s.flash ∧ (s.modJob k f).rst = s.rst ∧ (s.modJob k f).mgmt = s.mgmt ∧ (s.modJob k f).census = s.census ∧
    (s.modJob k f).jtag = s.jtag ∧ (s.modJob k f).freeing = s.freeing ∧ (s.modJob k f).free = s.free ∧ (s.modJob k f).out = s.out ∧
    (s.modJob k f).pending = s.pending := by
  simp only [State.modJob, State.setJob, and_self]

@[simp] theorem State.fn_setFn (s : State) (k : Nat) (v : FnBlock) (n : Nat) :
    (s.setFn k v).fn n = if n = k then v else s.fn n := by simp [State.fn, State.setFn]

@[simp] theorem State.fn_modFn (s : State) (k : Nat) (f : FnBlock → FnBlock) (n : Nat) :
    (s.modFn k f).fn n = if n = k then f (s.fn k) else s.fn n := by simp [State.modFn]

@[simp] theorem State.setFn_frame (s : State) (k : Nat) (v : FnBlock) :
    (s.setFn k v).time = s.time ∧ (s.setFn k v).coreMap = s.coreMap ∧ (s.setFn k v).cores = s.cores ∧
    (s.setFn k v).health = s.health ∧ (s.setFn k v).parts = s.parts ∧ (s.setFn k v).checks = s.checks ∧ (s.setFn k v).jobs = s.jobs ∧
    (s.setFn k v).tele = s.tele ∧ (s.setFn k v).steering = s.steering ∧ (s.setFn k v).saves = s.saves ∧
    (s.setFn k v).pools = s.pools ∧ (s.setFn k v).kvSlots = s.kvSlots ∧ (s.setFn k v).kvSent = s.kvSent ∧
    (s.setFn k v).kvInputs = s.kvInputs ∧ (s.setFn k v).numVfs = s.numVfs ∧ (s.setFn k v).vfEnable = s.vfEnable ∧
    (s.setFn k v).msixOn = s.msixOn ∧ (s.setFn k v).msixHold = s.msixHold ∧ (s.setFn k v).msixPend = s.msixPend ∧
    (s.setFn k v).config = s.config ∧ (s.setFn k v).msixRam = s.msixRam ∧ (s.setFn k v).streams = s.streams ∧
    (s.setFn k v).gens = s.gens ∧ (s.setFn k v).accepted = s.accepted ∧ (s.setFn k v).waits = s.waits ∧
    (s.setFn k v).hbmStacks = s.hbmStacks ∧ (s.setFn k v).hbm = s.hbm ∧ (s.setFn k v).hbmTags = s.hbmTags ∧
    (s.setFn k v).sluice = s.sluice ∧ (s.setFn k v).ranges = s.ranges ∧ (s.setFn k v).loaded = s.loaded ∧
    (s.setFn k v).links = s.links ∧ (s.setFn k v).route = s.route ∧ (s.setFn k v).subst = s.subst ∧ (s.setFn k v).pair = s.pair ∧
    (s.setFn k v).wharves = s.wharves ∧ (s.setFn k v).refs = s.refs ∧ (s.setFn k v).slipSec = s.slipSec ∧
    (s.setFn k v).integ = s.integ ∧ (s.setFn k v).flash = s.flash ∧ (s.setFn k v).rst = s.rst ∧ (s.setFn k v).mgmt = s.mgmt ∧
    (s.setFn k v).census = s.census ∧ (s.setFn k v).jtag = s.jtag ∧ (s.setFn k v).freeing = s.freeing ∧ (s.setFn k v).free = s.free ∧
    (s.setFn k v).out = s.out ∧ (s.setFn k v).pending = s.pending := by
  simp only [State.setFn, and_self]

@[simp] theorem State.modFn_frame (s : State) (k : Nat) (f : FnBlock → FnBlock) :
    (s.modFn k f).time = s.time ∧ (s.modFn k f).coreMap = s.coreMap ∧ (s.modFn k f).cores = s.cores ∧
    (s.modFn k f).health = s.health ∧ (s.modFn k f).parts = s.parts ∧ (s.modFn k f).checks = s.checks ∧ (s.modFn k f).jobs = s.jobs ∧
    (s.modFn k f).tele = s.tele ∧ (s.modFn k f).steering = s.steering ∧ (s.modFn k f).saves = s.saves ∧
    (s.modFn k f).pools = s.pools ∧ (s.modFn k f).kvSlots = s.kvSlots ∧ (s.modFn k f).kvSent = s.kvSent ∧
    (s.modFn k f).kvInputs = s.kvInputs ∧ (s.modFn k f).numVfs = s.numVfs ∧ (s.modFn k f).vfEnable = s.vfEnable ∧
    (s.modFn k f).msixOn = s.msixOn ∧ (s.modFn k f).msixHold = s.msixHold ∧ (s.modFn k f).msixPend = s.msixPend ∧
    (s.modFn k f).config = s.config ∧ (s.modFn k f).msixRam = s.msixRam ∧ (s.modFn k f).streams = s.streams ∧
    (s.modFn k f).gens = s.gens ∧ (s.modFn k f).accepted = s.accepted ∧ (s.modFn k f).waits = s.waits ∧
    (s.modFn k f).hbmStacks = s.hbmStacks ∧ (s.modFn k f).hbm = s.hbm ∧ (s.modFn k f).hbmTags = s.hbmTags ∧
    (s.modFn k f).sluice = s.sluice ∧ (s.modFn k f).ranges = s.ranges ∧ (s.modFn k f).loaded = s.loaded ∧
    (s.modFn k f).links = s.links ∧ (s.modFn k f).route = s.route ∧ (s.modFn k f).subst = s.subst ∧ (s.modFn k f).pair = s.pair ∧
    (s.modFn k f).wharves = s.wharves ∧ (s.modFn k f).refs = s.refs ∧ (s.modFn k f).slipSec = s.slipSec ∧
    (s.modFn k f).integ = s.integ ∧ (s.modFn k f).flash = s.flash ∧ (s.modFn k f).rst = s.rst ∧ (s.modFn k f).mgmt = s.mgmt ∧
    (s.modFn k f).census = s.census ∧ (s.modFn k f).jtag = s.jtag ∧ (s.modFn k f).freeing = s.freeing ∧ (s.modFn k f).free = s.free ∧
    (s.modFn k f).out = s.out ∧ (s.modFn k f).pending = s.pending := by
  simp only [State.modFn, State.setFn, and_self]

@[simp] theorem State.link_setLink (s : State) (k : Nat) (v : LinkSt) (n : Nat) :
    (s.setLink k v).link n = if n = k then v else s.link n := by simp [State.link, State.setLink]

@[simp] theorem State.link_modLink (s : State) (k : Nat) (f : LinkSt → LinkSt) (n : Nat) :
    (s.modLink k f).link n = if n = k then f (s.link k) else s.link n := by simp [State.modLink]

@[simp] theorem State.setLink_frame (s : State) (k : Nat) (v : LinkSt) :
    (s.setLink k v).time = s.time ∧ (s.setLink k v).coreMap = s.coreMap ∧ (s.setLink k v).cores = s.cores ∧
    (s.setLink k v).health = s.health ∧ (s.setLink k v).parts = s.parts ∧ (s.setLink k v).checks = s.checks ∧
    (s.setLink k v).jobs = s.jobs ∧ (s.setLink k v).tele = s.tele ∧ (s.setLink k v).steering = s.steering ∧
    (s.setLink k v).saves = s.saves ∧ (s.setLink k v).pools = s.pools ∧ (s.setLink k v).kvSlots = s.kvSlots ∧
    (s.setLink k v).kvSent = s.kvSent ∧ (s.setLink k v).kvInputs = s.kvInputs ∧ (s.setLink k v).fns = s.fns ∧
    (s.setLink k v).numVfs = s.numVfs ∧ (s.setLink k v).vfEnable = s.vfEnable ∧ (s.setLink k v).msixOn = s.msixOn ∧
    (s.setLink k v).msixHold = s.msixHold ∧ (s.setLink k v).msixPend = s.msixPend ∧ (s.setLink k v).config = s.config ∧
    (s.setLink k v).msixRam = s.msixRam ∧ (s.setLink k v).streams = s.streams ∧ (s.setLink k v).gens = s.gens ∧
    (s.setLink k v).accepted = s.accepted ∧ (s.setLink k v).waits = s.waits ∧ (s.setLink k v).hbmStacks = s.hbmStacks ∧
    (s.setLink k v).hbm = s.hbm ∧ (s.setLink k v).hbmTags = s.hbmTags ∧ (s.setLink k v).sluice = s.sluice ∧
    (s.setLink k v).ranges = s.ranges ∧ (s.setLink k v).loaded = s.loaded ∧ (s.setLink k v).route = s.route ∧
    (s.setLink k v).subst = s.subst ∧ (s.setLink k v).pair = s.pair ∧ (s.setLink k v).wharves = s.wharves ∧
    (s.setLink k v).refs = s.refs ∧ (s.setLink k v).slipSec = s.slipSec ∧ (s.setLink k v).integ = s.integ ∧
    (s.setLink k v).flash = s.flash ∧ (s.setLink k v).rst = s.rst ∧ (s.setLink k v).mgmt = s.mgmt ∧
    (s.setLink k v).census = s.census ∧ (s.setLink k v).jtag = s.jtag ∧ (s.setLink k v).freeing = s.freeing ∧
    (s.setLink k v).free = s.free ∧ (s.setLink k v).out = s.out ∧ (s.setLink k v).pending = s.pending := by
  simp only [State.setLink, and_self]

@[simp] theorem State.modLink_frame (s : State) (k : Nat) (f : LinkSt → LinkSt) :
    (s.modLink k f).time = s.time ∧ (s.modLink k f).coreMap = s.coreMap ∧ (s.modLink k f).cores = s.cores ∧
    (s.modLink k f).health = s.health ∧ (s.modLink k f).parts = s.parts ∧ (s.modLink k f).checks = s.checks ∧
    (s.modLink k f).jobs = s.jobs ∧ (s.modLink k f).tele = s.tele ∧ (s.modLink k f).steering = s.steering ∧
    (s.modLink k f).saves = s.saves ∧ (s.modLink k f).pools = s.pools ∧ (s.modLink k f).kvSlots = s.kvSlots ∧
    (s.modLink k f).kvSent = s.kvSent ∧ (s.modLink k f).kvInputs = s.kvInputs ∧ (s.modLink k f).fns = s.fns ∧
    (s.modLink k f).numVfs = s.numVfs ∧ (s.modLink k f).vfEnable = s.vfEnable ∧ (s.modLink k f).msixOn = s.msixOn ∧
    (s.modLink k f).msixHold = s.msixHold ∧ (s.modLink k f).msixPend = s.msixPend ∧ (s.modLink k f).config = s.config ∧
    (s.modLink k f).msixRam = s.msixRam ∧ (s.modLink k f).streams = s.streams ∧ (s.modLink k f).gens = s.gens ∧
    (s.modLink k f).accepted = s.accepted ∧ (s.modLink k f).waits = s.waits ∧ (s.modLink k f).hbmStacks = s.hbmStacks ∧
    (s.modLink k f).hbm = s.hbm ∧ (s.modLink k f).hbmTags = s.hbmTags ∧ (s.modLink k f).sluice = s.sluice ∧
    (s.modLink k f).ranges = s.ranges ∧ (s.modLink k f).loaded = s.loaded ∧ (s.modLink k f).route = s.route ∧
    (s.modLink k f).subst = s.subst ∧ (s.modLink k f).pair = s.pair ∧ (s.modLink k f).wharves = s.wharves ∧
    (s.modLink k f).refs = s.refs ∧ (s.modLink k f).slipSec = s.slipSec ∧ (s.modLink k f).integ = s.integ ∧
    (s.modLink k f).flash = s.flash ∧ (s.modLink k f).rst = s.rst ∧ (s.modLink k f).mgmt = s.mgmt ∧
    (s.modLink k f).census = s.census ∧ (s.modLink k f).jtag = s.jtag ∧ (s.modLink k f).freeing = s.freeing ∧
    (s.modLink k f).free = s.free ∧ (s.modLink k f).out = s.out ∧ (s.modLink k f).pending = s.pending := by
  simp only [State.modLink, State.setLink, and_self]

@[simp] theorem State.wharf_setWharf (s : State) (k : Nat) (v : Wharf) (n : Nat) :
    (s.setWharf k v).wharf n = if n = k then v else s.wharf n := by simp [State.wharf, State.setWharf]

@[simp] theorem State.wharf_modWharf (s : State) (k : Nat) (f : Wharf → Wharf) (n : Nat) :
    (s.modWharf k f).wharf n = if n = k then f (s.wharf k) else s.wharf n := by simp [State.modWharf]

@[simp] theorem State.setWharf_frame (s : State) (k : Nat) (v : Wharf) :
    (s.setWharf k v).time = s.time ∧ (s.setWharf k v).coreMap = s.coreMap ∧ (s.setWharf k v).cores = s.cores ∧
    (s.setWharf k v).health = s.health ∧ (s.setWharf k v).parts = s.parts ∧ (s.setWharf k v).checks = s.checks ∧
    (s.setWharf k v).jobs = s.jobs ∧ (s.setWharf k v).tele = s.tele ∧ (s.setWharf k v).steering = s.steering ∧
    (s.setWharf k v).saves = s.saves ∧ (s.setWharf k v).pools = s.pools ∧ (s.setWharf k v).kvSlots = s.kvSlots ∧
    (s.setWharf k v).kvSent = s.kvSent ∧ (s.setWharf k v).kvInputs = s.kvInputs ∧ (s.setWharf k v).fns = s.fns ∧
    (s.setWharf k v).numVfs = s.numVfs ∧ (s.setWharf k v).vfEnable = s.vfEnable ∧ (s.setWharf k v).msixOn = s.msixOn ∧
    (s.setWharf k v).msixHold = s.msixHold ∧ (s.setWharf k v).msixPend = s.msixPend ∧ (s.setWharf k v).config = s.config ∧
    (s.setWharf k v).msixRam = s.msixRam ∧ (s.setWharf k v).streams = s.streams ∧ (s.setWharf k v).gens = s.gens ∧
    (s.setWharf k v).accepted = s.accepted ∧ (s.setWharf k v).waits = s.waits ∧ (s.setWharf k v).hbmStacks = s.hbmStacks ∧
    (s.setWharf k v).hbm = s.hbm ∧ (s.setWharf k v).hbmTags = s.hbmTags ∧ (s.setWharf k v).sluice = s.sluice ∧
    (s.setWharf k v).ranges = s.ranges ∧ (s.setWharf k v).loaded = s.loaded ∧ (s.setWharf k v).links = s.links ∧
    (s.setWharf k v).route = s.route ∧ (s.setWharf k v).subst = s.subst ∧ (s.setWharf k v).pair = s.pair ∧
    (s.setWharf k v).refs = s.refs ∧ (s.setWharf k v).slipSec = s.slipSec ∧ (s.setWharf k v).integ = s.integ ∧
    (s.setWharf k v).flash = s.flash ∧ (s.setWharf k v).rst = s.rst ∧ (s.setWharf k v).mgmt = s.mgmt ∧
    (s.setWharf k v).census = s.census ∧ (s.setWharf k v).jtag = s.jtag ∧ (s.setWharf k v).freeing = s.freeing ∧
    (s.setWharf k v).free = s.free ∧ (s.setWharf k v).out = s.out ∧ (s.setWharf k v).pending = s.pending := by
  simp only [State.setWharf, and_self]

@[simp] theorem State.modWharf_frame (s : State) (k : Nat) (f : Wharf → Wharf) :
    (s.modWharf k f).time = s.time ∧ (s.modWharf k f).coreMap = s.coreMap ∧ (s.modWharf k f).cores = s.cores ∧
    (s.modWharf k f).health = s.health ∧ (s.modWharf k f).parts = s.parts ∧ (s.modWharf k f).checks = s.checks ∧
    (s.modWharf k f).jobs = s.jobs ∧ (s.modWharf k f).tele = s.tele ∧ (s.modWharf k f).steering = s.steering ∧
    (s.modWharf k f).saves = s.saves ∧ (s.modWharf k f).pools = s.pools ∧ (s.modWharf k f).kvSlots = s.kvSlots ∧
    (s.modWharf k f).kvSent = s.kvSent ∧ (s.modWharf k f).kvInputs = s.kvInputs ∧ (s.modWharf k f).fns = s.fns ∧
    (s.modWharf k f).numVfs = s.numVfs ∧ (s.modWharf k f).vfEnable = s.vfEnable ∧ (s.modWharf k f).msixOn = s.msixOn ∧
    (s.modWharf k f).msixHold = s.msixHold ∧ (s.modWharf k f).msixPend = s.msixPend ∧ (s.modWharf k f).config = s.config ∧
    (s.modWharf k f).msixRam = s.msixRam ∧ (s.modWharf k f).streams = s.streams ∧ (s.modWharf k f).gens = s.gens ∧
    (s.modWharf k f).accepted = s.accepted ∧ (s.modWharf k f).waits = s.waits ∧ (s.modWharf k f).hbmStacks = s.hbmStacks ∧
    (s.modWharf k f).hbm = s.hbm ∧ (s.modWharf k f).hbmTags = s.hbmTags ∧ (s.modWharf k f).sluice = s.sluice ∧
    (s.modWharf k f).ranges = s.ranges ∧ (s.modWharf k f).loaded = s.loaded ∧ (s.modWharf k f).links = s.links ∧
    (s.modWharf k f).route = s.route ∧ (s.modWharf k f).subst = s.subst ∧ (s.modWharf k f).pair = s.pair ∧
    (s.modWharf k f).refs = s.refs ∧ (s.modWharf k f).slipSec = s.slipSec ∧ (s.modWharf k f).integ = s.integ ∧
    (s.modWharf k f).flash = s.flash ∧ (s.modWharf k f).rst = s.rst ∧ (s.modWharf k f).mgmt = s.mgmt ∧
    (s.modWharf k f).census = s.census ∧ (s.modWharf k f).jtag = s.jtag ∧ (s.modWharf k f).freeing = s.freeing ∧
    (s.modWharf k f).free = s.free ∧ (s.modWharf k f).out = s.out ∧ (s.modWharf k f).pending = s.pending := by
  simp only [State.modWharf, State.setWharf, and_self]

@[simp] theorem State.teleOf_modTele (s : State) (k : Nat) (f : JobTele → JobTele) (n : Nat) :
    (s.modTele k f).teleOf n = if n = k then f (s.teleOf k) else s.teleOf n := by simp [State.teleOf, State.modTele]

@[simp] theorem State.modTele_frame (s : State) (k : Nat) (f : JobTele → JobTele) :
    (s.modTele k f).time = s.time ∧ (s.modTele k f).coreMap = s.coreMap ∧ (s.modTele k f).cores = s.cores ∧
    (s.modTele k f).health = s.health ∧ (s.modTele k f).parts = s.parts ∧ (s.modTele k f).checks = s.checks ∧
    (s.modTele k f).jobs = s.jobs ∧ (s.modTele k f).steering = s.steering ∧ (s.modTele k f).saves = s.saves ∧
    (s.modTele k f).pools = s.pools ∧ (s.modTele k f).kvSlots = s.kvSlots ∧ (s.modTele k f).kvSent = s.kvSent ∧
    (s.modTele k f).kvInputs = s.kvInputs ∧ (s.modTele k f).fns = s.fns ∧ (s.modTele k f).numVfs = s.numVfs ∧
    (s.modTele k f).vfEnable = s.vfEnable ∧ (s.modTele k f).msixOn = s.msixOn ∧ (s.modTele k f).msixHold = s.msixHold ∧
    (s.modTele k f).msixPend = s.msixPend ∧ (s.modTele k f).config = s.config ∧ (s.modTele k f).msixRam = s.msixRam ∧
    (s.modTele k f).streams = s.streams ∧ (s.modTele k f).gens = s.gens ∧ (s.modTele k f).accepted = s.accepted ∧
    (s.modTele k f).waits = s.waits ∧ (s.modTele k f).hbmStacks = s.hbmStacks ∧ (s.modTele k f).hbm = s.hbm ∧
    (s.modTele k f).hbmTags = s.hbmTags ∧ (s.modTele k f).sluice = s.sluice ∧ (s.modTele k f).ranges = s.ranges ∧
    (s.modTele k f).loaded = s.loaded ∧ (s.modTele k f).links = s.links ∧ (s.modTele k f).route = s.route ∧
    (s.modTele k f).subst = s.subst ∧ (s.modTele k f).pair = s.pair ∧ (s.modTele k f).wharves = s.wharves ∧
    (s.modTele k f).refs = s.refs ∧ (s.modTele k f).slipSec = s.slipSec ∧ (s.modTele k f).integ = s.integ ∧
    (s.modTele k f).flash = s.flash ∧ (s.modTele k f).rst = s.rst ∧ (s.modTele k f).mgmt = s.mgmt ∧
    (s.modTele k f).census = s.census ∧ (s.modTele k f).jtag = s.jtag ∧ (s.modTele k f).freeing = s.freeing ∧
    (s.modTele k f).free = s.free ∧ (s.modTele k f).out = s.out ∧ (s.modTele k f).pending = s.pending := by
  simp only [State.modTele, and_self]

@[simp] theorem State.stack_modStack (s : State) (k : Nat) (f : Stack → Stack) (n : Nat) :
    (s.modStack k f).stack n = if n = k then f (s.stack k) else s.stack n := by simp [State.stack, State.modStack]

@[simp] theorem State.modStack_frame (s : State) (k : Nat) (f : Stack → Stack) :
    (s.modStack k f).time = s.time ∧ (s.modStack k f).coreMap = s.coreMap ∧ (s.modStack k f).cores = s.cores ∧
    (s.modStack k f).health = s.health ∧ (s.modStack k f).parts = s.parts ∧ (s.modStack k f).checks = s.checks ∧
    (s.modStack k f).jobs = s.jobs ∧ (s.modStack k f).tele = s.tele ∧ (s.modStack k f).steering = s.steering ∧
    (s.modStack k f).saves = s.saves ∧ (s.modStack k f).pools = s.pools ∧ (s.modStack k f).kvSlots = s.kvSlots ∧
    (s.modStack k f).kvSent = s.kvSent ∧ (s.modStack k f).kvInputs = s.kvInputs ∧ (s.modStack k f).fns = s.fns ∧
    (s.modStack k f).numVfs = s.numVfs ∧ (s.modStack k f).vfEnable = s.vfEnable ∧ (s.modStack k f).msixOn = s.msixOn ∧
    (s.modStack k f).msixHold = s.msixHold ∧ (s.modStack k f).msixPend = s.msixPend ∧ (s.modStack k f).config = s.config ∧
    (s.modStack k f).msixRam = s.msixRam ∧ (s.modStack k f).streams = s.streams ∧ (s.modStack k f).gens = s.gens ∧
    (s.modStack k f).accepted = s.accepted ∧ (s.modStack k f).waits = s.waits ∧ (s.modStack k f).hbm = s.hbm ∧
    (s.modStack k f).hbmTags = s.hbmTags ∧ (s.modStack k f).sluice = s.sluice ∧ (s.modStack k f).ranges = s.ranges ∧
    (s.modStack k f).loaded = s.loaded ∧ (s.modStack k f).links = s.links ∧ (s.modStack k f).route = s.route ∧
    (s.modStack k f).subst = s.subst ∧ (s.modStack k f).pair = s.pair ∧ (s.modStack k f).wharves = s.wharves ∧
    (s.modStack k f).refs = s.refs ∧ (s.modStack k f).slipSec = s.slipSec ∧ (s.modStack k f).integ = s.integ ∧
    (s.modStack k f).flash = s.flash ∧ (s.modStack k f).rst = s.rst ∧ (s.modStack k f).mgmt = s.mgmt ∧
    (s.modStack k f).census = s.census ∧ (s.modStack k f).jtag = s.jtag ∧ (s.modStack k f).freeing = s.freeing ∧
    (s.modStack k f).free = s.free ∧ (s.modStack k f).out = s.out ∧ (s.modStack k f).pending = s.pending := by
  simp only [State.modStack, and_self]

@[simp] theorem State.healthOf_modHealth (s : State) (k : Nat) (f : Health → Health) (n : Nat) :
    (s.modHealth k f).healthOf n = if n = k then f (s.healthOf k) else s.healthOf n := by simp [State.healthOf, State.modHealth]

@[simp] theorem State.modHealth_frame (s : State) (k : Nat) (f : Health → Health) :
    (s.modHealth k f).time = s.time ∧ (s.modHealth k f).coreMap = s.coreMap ∧ (s.modHealth k f).cores = s.cores ∧
    (s.modHealth k f).parts = s.parts ∧ (s.modHealth k f).checks = s.checks ∧ (s.modHealth k f).jobs = s.jobs ∧
    (s.modHealth k f).tele = s.tele ∧ (s.modHealth k f).steering = s.steering ∧ (s.modHealth k f).saves = s.saves ∧
    (s.modHealth k f).pools = s.pools ∧ (s.modHealth k f).kvSlots = s.kvSlots ∧ (s.modHealth k f).kvSent = s.kvSent ∧
    (s.modHealth k f).kvInputs = s.kvInputs ∧ (s.modHealth k f).fns = s.fns ∧ (s.modHealth k f).numVfs = s.numVfs ∧
    (s.modHealth k f).vfEnable = s.vfEnable ∧ (s.modHealth k f).msixOn = s.msixOn ∧ (s.modHealth k f).msixHold = s.msixHold ∧
    (s.modHealth k f).msixPend = s.msixPend ∧ (s.modHealth k f).config = s.config ∧ (s.modHealth k f).msixRam = s.msixRam ∧
    (s.modHealth k f).streams = s.streams ∧ (s.modHealth k f).gens = s.gens ∧ (s.modHealth k f).accepted = s.accepted ∧
    (s.modHealth k f).waits = s.waits ∧ (s.modHealth k f).hbmStacks = s.hbmStacks ∧ (s.modHealth k f).hbm = s.hbm ∧
    (s.modHealth k f).hbmTags = s.hbmTags ∧ (s.modHealth k f).sluice = s.sluice ∧ (s.modHealth k f).ranges = s.ranges ∧
    (s.modHealth k f).loaded = s.loaded ∧ (s.modHealth k f).links = s.links ∧ (s.modHealth k f).route = s.route ∧
    (s.modHealth k f).subst = s.subst ∧ (s.modHealth k f).pair = s.pair ∧ (s.modHealth k f).wharves = s.wharves ∧
    (s.modHealth k f).refs = s.refs ∧ (s.modHealth k f).slipSec = s.slipSec ∧ (s.modHealth k f).integ = s.integ ∧
    (s.modHealth k f).flash = s.flash ∧ (s.modHealth k f).rst = s.rst ∧ (s.modHealth k f).mgmt = s.mgmt ∧
    (s.modHealth k f).census = s.census ∧ (s.modHealth k f).jtag = s.jtag ∧ (s.modHealth k f).freeing = s.freeing ∧
    (s.modHealth k f).free = s.free ∧ (s.modHealth k f).out = s.out ∧ (s.modHealth k f).pending = s.pending := by
  simp only [State.modHealth, and_self]

@[simp] theorem State.ref_modRef (s : State) (k : Nat) (f : Reference → Reference) (n : Nat) :
    (s.modRef k f).ref n = if n = k then f (s.ref k) else s.ref n := by simp [State.ref, State.modRef]

@[simp] theorem State.modRef_frame (s : State) (k : Nat) (f : Reference → Reference) :
    (s.modRef k f).time = s.time ∧ (s.modRef k f).coreMap = s.coreMap ∧ (s.modRef k f).cores = s.cores ∧
    (s.modRef k f).health = s.health ∧ (s.modRef k f).parts = s.parts ∧ (s.modRef k f).checks = s.checks ∧
    (s.modRef k f).jobs = s.jobs ∧ (s.modRef k f).tele = s.tele ∧ (s.modRef k f).steering = s.steering ∧
    (s.modRef k f).saves = s.saves ∧ (s.modRef k f).pools = s.pools ∧ (s.modRef k f).kvSlots = s.kvSlots ∧
    (s.modRef k f).kvSent = s.kvSent ∧ (s.modRef k f).kvInputs = s.kvInputs ∧ (s.modRef k f).fns = s.fns ∧
    (s.modRef k f).numVfs = s.numVfs ∧ (s.modRef k f).vfEnable = s.vfEnable ∧ (s.modRef k f).msixOn = s.msixOn ∧
    (s.modRef k f).msixHold = s.msixHold ∧ (s.modRef k f).msixPend = s.msixPend ∧ (s.modRef k f).config = s.config ∧
    (s.modRef k f).msixRam = s.msixRam ∧ (s.modRef k f).streams = s.streams ∧ (s.modRef k f).gens = s.gens ∧
    (s.modRef k f).accepted = s.accepted ∧ (s.modRef k f).waits = s.waits ∧ (s.modRef k f).hbmStacks = s.hbmStacks ∧
    (s.modRef k f).hbm = s.hbm ∧ (s.modRef k f).hbmTags = s.hbmTags ∧ (s.modRef k f).sluice = s.sluice ∧
    (s.modRef k f).ranges = s.ranges ∧ (s.modRef k f).loaded = s.loaded ∧ (s.modRef k f).links = s.links ∧
    (s.modRef k f).route = s.route ∧ (s.modRef k f).subst = s.subst ∧ (s.modRef k f).pair = s.pair ∧
    (s.modRef k f).wharves = s.wharves ∧ (s.modRef k f).slipSec = s.slipSec ∧ (s.modRef k f).integ = s.integ ∧
    (s.modRef k f).flash = s.flash ∧ (s.modRef k f).rst = s.rst ∧ (s.modRef k f).mgmt = s.mgmt ∧ (s.modRef k f).census = s.census ∧
    (s.modRef k f).jtag = s.jtag ∧ (s.modRef k f).freeing = s.freeing ∧ (s.modRef k f).free = s.free ∧ (s.modRef k f).out = s.out ∧
    (s.modRef k f).pending = s.pending := by
  simp only [State.modRef, and_self]

@[simp] theorem State.pool_modPool (s : State) (k : Nat) (f : KvPool → KvPool) (n : Nat) :
    (s.modPool k f).pool n = if n = k then f (s.pool k) else s.pool n := by simp [State.pool, State.modPool]

@[simp] theorem State.modPool_frame (s : State) (k : Nat) (f : KvPool → KvPool) :
    (s.modPool k f).time = s.time ∧ (s.modPool k f).coreMap = s.coreMap ∧ (s.modPool k f).cores = s.cores ∧
    (s.modPool k f).health = s.health ∧ (s.modPool k f).parts = s.parts ∧ (s.modPool k f).checks = s.checks ∧
    (s.modPool k f).jobs = s.jobs ∧ (s.modPool k f).tele = s.tele ∧ (s.modPool k f).steering = s.steering ∧
    (s.modPool k f).saves = s.saves ∧ (s.modPool k f).kvSlots = s.kvSlots ∧ (s.modPool k f).kvSent = s.kvSent ∧
    (s.modPool k f).kvInputs = s.kvInputs ∧ (s.modPool k f).fns = s.fns ∧ (s.modPool k f).numVfs = s.numVfs ∧
    (s.modPool k f).vfEnable = s.vfEnable ∧ (s.modPool k f).msixOn = s.msixOn ∧ (s.modPool k f).msixHold = s.msixHold ∧
    (s.modPool k f).msixPend = s.msixPend ∧ (s.modPool k f).config = s.config ∧ (s.modPool k f).msixRam = s.msixRam ∧
    (s.modPool k f).streams = s.streams ∧ (s.modPool k f).gens = s.gens ∧ (s.modPool k f).accepted = s.accepted ∧
    (s.modPool k f).waits = s.waits ∧ (s.modPool k f).hbmStacks = s.hbmStacks ∧ (s.modPool k f).hbm = s.hbm ∧
    (s.modPool k f).hbmTags = s.hbmTags ∧ (s.modPool k f).sluice = s.sluice ∧ (s.modPool k f).ranges = s.ranges ∧
    (s.modPool k f).loaded = s.loaded ∧ (s.modPool k f).links = s.links ∧ (s.modPool k f).route = s.route ∧
    (s.modPool k f).subst = s.subst ∧ (s.modPool k f).pair = s.pair ∧ (s.modPool k f).wharves = s.wharves ∧
    (s.modPool k f).refs = s.refs ∧ (s.modPool k f).slipSec = s.slipSec ∧ (s.modPool k f).integ = s.integ ∧
    (s.modPool k f).flash = s.flash ∧ (s.modPool k f).rst = s.rst ∧ (s.modPool k f).mgmt = s.mgmt ∧
    (s.modPool k f).census = s.census ∧ (s.modPool k f).jtag = s.jtag ∧ (s.modPool k f).freeing = s.freeing ∧
    (s.modPool k f).free = s.free ∧ (s.modPool k f).out = s.out ∧ (s.modPool k f).pending = s.pending := by
  simp only [State.modPool, and_self]

@[simp] theorem State.act_modAct (s : State) (k : Nat) (f : Activity → Activity) (n : Nat) :
    (s.modAct k f).act n = if n = k then f (s.act k) else s.act n := by simp [State.act, State.modAct]

@[simp] theorem State.modAct_frame (s : State) (k : Nat) (f : Activity → Activity) :
    (s.modAct k f).time = s.time ∧ (s.modAct k f).coreMap = s.coreMap ∧ (s.modAct k f).cores = s.cores ∧
    (s.modAct k f).health = s.health ∧ (s.modAct k f).parts = s.parts ∧ (s.modAct k f).checks = s.checks ∧
    (s.modAct k f).jobs = s.jobs ∧ (s.modAct k f).tele = s.tele ∧ (s.modAct k f).steering = s.steering ∧
    (s.modAct k f).saves = s.saves ∧ (s.modAct k f).pools = s.pools ∧ (s.modAct k f).kvSlots = s.kvSlots ∧
    (s.modAct k f).kvSent = s.kvSent ∧ (s.modAct k f).kvInputs = s.kvInputs ∧ (s.modAct k f).fns = s.fns ∧
    (s.modAct k f).numVfs = s.numVfs ∧ (s.modAct k f).vfEnable = s.vfEnable ∧ (s.modAct k f).msixOn = s.msixOn ∧
    (s.modAct k f).msixHold = s.msixHold ∧ (s.modAct k f).msixPend = s.msixPend ∧ (s.modAct k f).config = s.config ∧
    (s.modAct k f).msixRam = s.msixRam ∧ (s.modAct k f).streams = s.streams ∧ (s.modAct k f).gens = s.gens ∧
    (s.modAct k f).accepted = s.accepted ∧ (s.modAct k f).waits = s.waits ∧ (s.modAct k f).hbmStacks = s.hbmStacks ∧
    (s.modAct k f).hbm = s.hbm ∧ (s.modAct k f).hbmTags = s.hbmTags ∧ (s.modAct k f).sluice = s.sluice ∧
    (s.modAct k f).ranges = s.ranges ∧ (s.modAct k f).loaded = s.loaded ∧ (s.modAct k f).links = s.links ∧
    (s.modAct k f).route = s.route ∧ (s.modAct k f).subst = s.subst ∧ (s.modAct k f).pair = s.pair ∧
    (s.modAct k f).wharves = s.wharves ∧ (s.modAct k f).refs = s.refs ∧ (s.modAct k f).slipSec = s.slipSec ∧
    (s.modAct k f).integ = s.integ ∧ (s.modAct k f).flash = s.flash ∧ (s.modAct k f).rst = s.rst ∧ (s.modAct k f).census = s.census ∧
    (s.modAct k f).jtag = s.jtag ∧ (s.modAct k f).freeing = s.freeing ∧ (s.modAct k f).free = s.free ∧ (s.modAct k f).out = s.out ∧
    (s.modAct k f).pending = s.pending := by
  simp only [State.modAct, and_self]

@[simp] theorem State.stream_setStream (s : State) (i : Nat) (v : Option Stream) (n : Nat) :
    (s.setStream i v).stream n = if n = i then v else s.stream n := by simp [State.stream, State.setStream, OTable.at?]
@[simp] theorem State.stream_modStream (s : State) (i : Nat) (f : Stream → Stream) (n : Nat) :
    (s.modStream i f).stream n = if n = i then (s.stream i).map f else s.stream n := by
  simp [State.stream, State.modStream, OTable.modify, OTable.at?]

@[simp] theorem State.setStream_frame (s : State) (k : Nat) (v : Option Stream) :
    (s.setStream k v).time = s.time ∧ (s.setStream k v).coreMap = s.coreMap ∧ (s.setStream k v).cores = s.cores ∧
    (s.setStream k v).health = s.health ∧ (s.setStream k v).parts = s.parts ∧ (s.setStream k v).checks = s.checks ∧
    (s.setStream k v).jobs = s.jobs ∧ (s.setStream k v).tele = s.tele ∧ (s.setStream k v).steering = s.steering ∧
    (s.setStream k v).saves = s.saves ∧ (s.setStream k v).pools = s.pools ∧ (s.setStream k v).kvSlots = s.kvSlots ∧
    (s.setStream k v).kvSent = s.kvSent ∧ (s.setStream k v).kvInputs = s.kvInputs ∧ (s.setStream k v).fns = s.fns ∧
    (s.setStream k v).numVfs = s.numVfs ∧ (s.setStream k v).vfEnable = s.vfEnable ∧ (s.setStream k v).msixOn = s.msixOn ∧
    (s.setStream k v).msixHold = s.msixHold ∧ (s.setStream k v).msixPend = s.msixPend ∧ (s.setStream k v).config = s.config ∧
    (s.setStream k v).msixRam = s.msixRam ∧ (s.setStream k v).gens = s.gens ∧ (s.setStream k v).accepted = s.accepted ∧
    (s.setStream k v).waits = s.waits ∧ (s.setStream k v).hbmStacks = s.hbmStacks ∧ (s.setStream k v).hbm = s.hbm ∧
    (s.setStream k v).hbmTags = s.hbmTags ∧ (s.setStream k v).sluice = s.sluice ∧ (s.setStream k v).ranges = s.ranges ∧
    (s.setStream k v).loaded = s.loaded ∧ (s.setStream k v).links = s.links ∧ (s.setStream k v).route = s.route ∧
    (s.setStream k v).subst = s.subst ∧ (s.setStream k v).pair = s.pair ∧ (s.setStream k v).wharves = s.wharves ∧
    (s.setStream k v).refs = s.refs ∧ (s.setStream k v).slipSec = s.slipSec ∧ (s.setStream k v).integ = s.integ ∧
    (s.setStream k v).flash = s.flash ∧ (s.setStream k v).rst = s.rst ∧ (s.setStream k v).mgmt = s.mgmt ∧
    (s.setStream k v).census = s.census ∧ (s.setStream k v).jtag = s.jtag ∧ (s.setStream k v).freeing = s.freeing ∧
    (s.setStream k v).free = s.free ∧ (s.setStream k v).out = s.out ∧ (s.setStream k v).pending = s.pending := by
  simp only [State.setStream, and_self]

@[simp] theorem State.modStream_frame (s : State) (k : Nat) (f : Stream → Stream) :
    (s.modStream k f).time = s.time ∧ (s.modStream k f).coreMap = s.coreMap ∧ (s.modStream k f).cores = s.cores ∧
    (s.modStream k f).health = s.health ∧ (s.modStream k f).parts = s.parts ∧ (s.modStream k f).checks = s.checks ∧
    (s.modStream k f).jobs = s.jobs ∧ (s.modStream k f).tele = s.tele ∧ (s.modStream k f).steering = s.steering ∧
    (s.modStream k f).saves = s.saves ∧ (s.modStream k f).pools = s.pools ∧ (s.modStream k f).kvSlots = s.kvSlots ∧
    (s.modStream k f).kvSent = s.kvSent ∧ (s.modStream k f).kvInputs = s.kvInputs ∧ (s.modStream k f).fns = s.fns ∧
    (s.modStream k f).numVfs = s.numVfs ∧ (s.modStream k f).vfEnable = s.vfEnable ∧ (s.modStream k f).msixOn = s.msixOn ∧
    (s.modStream k f).msixHold = s.msixHold ∧ (s.modStream k f).msixPend = s.msixPend ∧ (s.modStream k f).config = s.config ∧
    (s.modStream k f).msixRam = s.msixRam ∧ (s.modStream k f).gens = s.gens ∧ (s.modStream k f).accepted = s.accepted ∧
    (s.modStream k f).waits = s.waits ∧ (s.modStream k f).hbmStacks = s.hbmStacks ∧ (s.modStream k f).hbm = s.hbm ∧
    (s.modStream k f).hbmTags = s.hbmTags ∧ (s.modStream k f).sluice = s.sluice ∧ (s.modStream k f).ranges = s.ranges ∧
    (s.modStream k f).loaded = s.loaded ∧ (s.modStream k f).links = s.links ∧ (s.modStream k f).route = s.route ∧
    (s.modStream k f).subst = s.subst ∧ (s.modStream k f).pair = s.pair ∧ (s.modStream k f).wharves = s.wharves ∧
    (s.modStream k f).refs = s.refs ∧ (s.modStream k f).slipSec = s.slipSec ∧ (s.modStream k f).integ = s.integ ∧
    (s.modStream k f).flash = s.flash ∧ (s.modStream k f).rst = s.rst ∧ (s.modStream k f).mgmt = s.mgmt ∧
    (s.modStream k f).census = s.census ∧ (s.modStream k f).jtag = s.jtag ∧ (s.modStream k f).freeing = s.freeing ∧
    (s.modStream k f).free = s.free ∧ (s.modStream k f).out = s.out ∧ (s.modStream k f).pending = s.pending := by
  simp only [State.modStream, and_self]

@[simp] theorem State.emit_frame (s : State) (o : Out) :
    (s.emit o).time = s.time ∧ (s.emit o).coreMap = s.coreMap ∧ (s.emit o).cores = s.cores ∧ (s.emit o).health = s.health ∧
    (s.emit o).parts = s.parts ∧ (s.emit o).checks = s.checks ∧ (s.emit o).jobs = s.jobs ∧ (s.emit o).tele = s.tele ∧
    (s.emit o).steering = s.steering ∧ (s.emit o).saves = s.saves ∧ (s.emit o).pools = s.pools ∧ (s.emit o).kvSlots = s.kvSlots ∧
    (s.emit o).kvSent = s.kvSent ∧ (s.emit o).kvInputs = s.kvInputs ∧ (s.emit o).fns = s.fns ∧ (s.emit o).numVfs = s.numVfs ∧
    (s.emit o).vfEnable = s.vfEnable ∧ (s.emit o).msixOn = s.msixOn ∧ (s.emit o).msixHold = s.msixHold ∧
    (s.emit o).msixPend = s.msixPend ∧ (s.emit o).config = s.config ∧ (s.emit o).msixRam = s.msixRam ∧
    (s.emit o).streams = s.streams ∧ (s.emit o).gens = s.gens ∧ (s.emit o).accepted = s.accepted ∧ (s.emit o).waits = s.waits ∧
    (s.emit o).hbmStacks = s.hbmStacks ∧ (s.emit o).hbm = s.hbm ∧ (s.emit o).hbmTags = s.hbmTags ∧ (s.emit o).sluice = s.sluice ∧
    (s.emit o).ranges = s.ranges ∧ (s.emit o).loaded = s.loaded ∧ (s.emit o).links = s.links ∧ (s.emit o).route = s.route ∧
    (s.emit o).subst = s.subst ∧ (s.emit o).pair = s.pair ∧ (s.emit o).wharves = s.wharves ∧ (s.emit o).refs = s.refs ∧
    (s.emit o).slipSec = s.slipSec ∧ (s.emit o).integ = s.integ ∧ (s.emit o).flash = s.flash ∧ (s.emit o).rst = s.rst ∧
    (s.emit o).mgmt = s.mgmt ∧ (s.emit o).census = s.census ∧ (s.emit o).jtag = s.jtag ∧ (s.emit o).freeing = s.freeing ∧
    (s.emit o).free = s.free ∧ (s.emit o).pending = s.pending := by
  simp only [State.emit, and_self]

@[simp] theorem State.await_frame (s : State) (c : Cmd) (k : Waiting) :
    (s.await c k).time = s.time ∧ (s.await c k).coreMap = s.coreMap ∧ (s.await c k).cores = s.cores ∧
    (s.await c k).health = s.health ∧ (s.await c k).parts = s.parts ∧ (s.await c k).checks = s.checks ∧ (s.await c k).jobs = s.jobs ∧
    (s.await c k).tele = s.tele ∧ (s.await c k).steering = s.steering ∧ (s.await c k).saves = s.saves ∧
    (s.await c k).pools = s.pools ∧ (s.await c k).kvSlots = s.kvSlots ∧ (s.await c k).kvSent = s.kvSent ∧
    (s.await c k).kvInputs = s.kvInputs ∧ (s.await c k).fns = s.fns ∧ (s.await c k).numVfs = s.numVfs ∧
    (s.await c k).vfEnable = s.vfEnable ∧ (s.await c k).msixOn = s.msixOn ∧ (s.await c k).msixHold = s.msixHold ∧
    (s.await c k).msixPend = s.msixPend ∧ (s.await c k).config = s.config ∧ (s.await c k).msixRam = s.msixRam ∧
    (s.await c k).streams = s.streams ∧ (s.await c k).gens = s.gens ∧ (s.await c k).accepted = s.accepted ∧
    (s.await c k).hbmStacks = s.hbmStacks ∧ (s.await c k).hbm = s.hbm ∧ (s.await c k).hbmTags = s.hbmTags ∧
    (s.await c k).sluice = s.sluice ∧ (s.await c k).ranges = s.ranges ∧ (s.await c k).loaded = s.loaded ∧
    (s.await c k).links = s.links ∧ (s.await c k).route = s.route ∧ (s.await c k).subst = s.subst ∧ (s.await c k).pair = s.pair ∧
    (s.await c k).wharves = s.wharves ∧ (s.await c k).refs = s.refs ∧ (s.await c k).slipSec = s.slipSec ∧
    (s.await c k).integ = s.integ ∧ (s.await c k).flash = s.flash ∧ (s.await c k).rst = s.rst ∧ (s.await c k).mgmt = s.mgmt ∧
    (s.await c k).census = s.census ∧ (s.await c k).jtag = s.jtag ∧ (s.await c k).freeing = s.freeing ∧ (s.await c k).free = s.free ∧
    (s.await c k).out = s.out ∧ (s.await c k).pending = s.pending := by
  simp only [State.await, and_self]

@[simp] theorem State.out_emit (s : State) (o : Out) : (s.emit o).out = s.out ++ [o] := rfl

end Sys2Proof.Machine
end

