-- ==== Sys2Proof/WellFormed.lean ====
section
/-! DEFINITION. Which commands are well formed: the ranges that the spec gives the operands beyond what their types say. -/

namespace Sys2Proof

open Sys2Proof.Machine

/-- A chip ID has 11 bits (R405). -/
def chipOk (n : Nat) : Bool := decide (n < 2048)
/-- Sixteen bits. -/
def halfOk (n : Nat) : Bool := decide (n < 65536)
/-- A cohort field has 6 bits (08 `LOCK_CFG`, R427). -/
def cohortOk (n : Nat) : Bool := decide (n < 64)
/-- Device addresses (R350, R352): 96 GiB. -/
def deviceBytes : Nat := 96 * 2 ^ 30

/-- A packet has an eight-word header and at most 4,096 payload bytes (R532, R540). -/
def Machine.Packet.wellFormed (p : Packet) : Bool := p.header.length == 8 && decide (p.payload.length ≤ 1024)

/-- Where a command comes from. -/
def Machine.Via.wellFormed : Via → Bool
  | .ring _ => true
  | .tow _ p => p.wellFormed

/-- A submission entry has 16 words (R511). -/
def Machine.SqEntry.wellFormed (e : SqEntry) : Bool := e.words.length == 16 && decide (e.payload.length ≤ 1024)

/-- An intake entry's header fields (R520). -/
def Machine.IntakeEntry.wellFormed (e : IntakeEntry) : Bool := halfOk e.seq && decide (e.valid < 2 ^ 32)

/-- A lock signal (R282): core, lock, kind and amount. -/
def Machine.Signal.wellFormed (g : Signal) : Bool :=
  decide (g.core < 24) && decide (g.lock < 256) && (g.kind == 1 || g.kind == 2) && decide (1 ≤ g.amount) && decide (g.amount ≤ 64)

/-- A RUN (R387): its VC, chips, cores and cohort. -/
def Machine.Run.wellFormed (r : Run) : Bool :=
  decide (r.vc < 4) && chipOk r.srcChip && chipOk r.destChip && decide (r.srcCore < 32) && cohortOk r.cohort && halfOk r.chunk &&
  halfOk r.epoch

/-- A COMMIT (R387). -/
def Machine.CommitMsg.wellFormed : CommitMsg → Bool
  | .transfer vc _ parts sig => decide (vc < 4) && decide (1 ≤ parts) && (match sig with | some g => g.wellFormed | none => true)
  | .mirror epoch cohort chunk _ => halfOk epoch && cohortOk cohort && halfOk chunk

/-- What a phase of bring-up reports: sites 0 to 27, array rows of the 64 banks, a temperature, a verdict of the pattern and of the
training for each stack. -/
def Machine.PhaseReport.wellFormed (r : PhaseReport) : Bool :=
  r.failedSites.all (fun n => decide (n < 28)) &&
  r.failedRows.all (fun e => decide (e.1 < 28) && decide (e.2.1 < 64) && decide (e.2.2 < 1024)) && decide (r.hbmTemps.length ≤ 4) &&
  decide (r.patternOk.length ≤ 4) && decide (r.trainOk.length ≤ 4)

/-- An activity ID (R687): one of the ten kinds, a target of 8 bits. -/
def activityOk (id : Nat) : Bool := decide (1 ≤ actKind id) && decide (actKind id ≤ 10)

/-- Corrected scratchpad errors (R85): a bank and its array row, or 64 and a row of the tag array. -/
def correctedOk (es : List (Nat × Nat)) : Bool := es.all (fun e => decide (e.1 ≤ 64) && decide (e.2 < 1024))

/-- Whether a command is well formed. -/
def Instr.wellFormed : Instr → Bool
  | .porNDeassert => true
  | .perstNDeassert => true
  | .resetPinAssert _ => true
  | .bringupPhaseEnd r => r.wellFormed
  | .fwSvnRaise => true
  | .watchdogExpiry => true
  | .tempSample readings avgW => decide (32 ≤ readings.length) && decide (readings.length ≤ 36) && decide (avgW < 65536)
  | .thermalTrip => true
  | .railOutOfRange _ => true
  | .functionLevelReset _ => true
  | .vfEnable numVfs _ => decide (numVfs ≤ 12)
  | .registerWrite _ bar offset size write => (bar == 0 || bar == 2) && decide (offset < 65536) && (size == 4 || size == 8) &&
    write.entries.all (·.wellFormed)
  | .ringEnable _ _ _ => true
  | .sqTailWrite _ _ entries => entries.all SqEntry.wellFormed
  | .cqHeadWrite _ _ => true
  | .completionWrite _ => true
  | .intakeDbWrite _ _ _ => true
  | .resultDbWrite _ _ _ => true
  | .intakeRead _ entry => entry.wellFormed
  | .resultRecordWrite _ _ payloads => payloads.all (fun p => decide (p.1 < 1024) && decide (p.2.length ≤ 65536))
  | .bar4Access _ _ len => decide (len ≤ 4096)
  | .devQuery via => via.wellFormed
  | .devSetTime via => via.wellFormed
  | .devResetWarm via => via.wellFormed
  | .devResetCore via => via.wellFormed
  | .devSealRead via => via.wellFormed
  | .devSealBlow via _ => via.wellFormed
  | .partConfigure via => via.wellFormed
  | .partSetWeir via => via.wellFormed
  | .jobLoad via => via.wellFormed
  | .jobStart via => via.wellFormed
  | .jobKill via => via.wellFormed
  | .jobPreempt via => via.wellFormed
  | .jobSetPriority via => via.wellFormed
  | .jobCounts via => via.wellFormed
  | .streamOpen via => via.wellFormed
  | .streamPause via => via.wellFormed
  | .streamResume via => via.wellFormed
  | .streamClose via => via.wellFormed
  | .streamBindWharf via => via.wellFormed
  | .streamQuery via => via.wellFormed
  | .modelInstallLoad via _ => via.wellFormed
  | .modelInstallStore via _ => via.wellFormed
  | .modelInstallDelete via => via.wellFormed
  | .modelDigestSetInterval via => via.wellFormed
  | .modelDigestSweep via => via.wellFormed
  | .modelDigestRead via => via.wellFormed
  | .scaleSteerSet via => via.wellFormed
  | .wharfConfig via => via.wellFormed
  | .wharfArm via => via.wellFormed
  | .wharfStart via => via.wellFormed
  | .wharfStop via => via.wellFormed
  | .wharfRefSelect via => via.wellFormed
  | .pairBind via => via.wellFormed
  | .pairMirrorStart via => via.wellFormed
  | .pairHandoverGive via => via.wellFormed
  | .pairHandoverReturn via => via.wellFormed
  | .pairStatus via => via.wellFormed
  | .pairUnbind via => via.wellFormed
  | .linkTrain via _ => via.wellFormed
  | .linkTrainStop via _ => via.wellFormed
  | .linkTrainClear via _ => via.wellFormed
  | .linkStatus via => via.wellFormed
  | .testScanNow via => via.wellFormed
  | .testScanInterval via => via.wellFormed
  | .testCheckRate via => via.wellFormed
  | .testObserveRead via => via.wellFormed
  | .testObserveMark via => via.wellFormed
  | .testObserveClear via => via.wellFormed
  | .coreRetire via => via.wellFormed
  | .signatureExport via => via.wellFormed
  | .patternInstall via _ => via.wellFormed
  | .fwUpdate via _ => via.wellFormed
  | .fwActivate via => via.wellFormed
  | .ledgerRead via => via.wellFormed
  | .ledgerWrite via data => via.wellFormed && decide (data.length ≤ 65536)
  | .flashHealthSummary via => via.wellFormed
  | .flashHealthRawRead via page readable => via.wellFormed && (page.length == 16384 || !readable)
  | .telemetryRead via => via.wellFormed
  | .censusArm via => via.wellFormed
  | .censusCancel via => via.wellFormed
  | .censusRead via => via.wellFormed
  | .mctpControlMessage _ msg => decide (3 ≤ msg.length) && decide (msg.length ≤ 4160)
  | .mctpDataToKnarum _ _ _ data => decide (1 ≤ data.length) && decide (data.length ≤ 1024)
  | .i3cAddressAssign _ _ => true
  | .ccInstruction step => correctedOk step.corrected
  | .descriptorEnqueue _ _ words => words.length == 16
  | .queueFullResume _ => true
  | .summaryFifoPop _ _ => true
  | .summaryStallResume _ => true
  | .veSumTimeout _ => true
  | .scanGate _ _ => true
  | .scanSegmentEnd _ _ _ => true
  | .dmCopy _ => true
  | .dmFill _ => true
  | .dmSendCore _ => true
  | .dmFetchCore _ => true
  | .dmHbmRead _ corrected => corrected.all (fun a => decide (a < deviceBytes))
  | .dmHbmWrite _ => true
  | .dmLinkSend _ => true
  | .meLoadw _ => true
  | .meMatmul _ => true
  | .meDrain _ => true
  | .meLoadrs _ => true
  | .meZero _ => true
  | .mePrewarm _ => true
  | .meLoadkv _ => true
  | .meMatmulC _ => true
  | .meCheck _ => true
  | .veFlight _ => true
  | .veSett _ => true
  | .veLoadft _ => true
  | .gpStep _ => true
  | .waitf _ _ => true
  | .waitd _ _ => true
  | .lockSignal _ _ => true
  | .lockDepth _ _ => true
  | .commandCommit _ commit => correctedOk commit.corrected
  | .waitComplete _ _ => true
  | .waitDeadline _ _ => true
  | .veSumOverflow _ => true
  | .creditTimeout _ => true
  | .meClockGate _ => true
  | .meWakeEnd _ => true
  | .maintenanceCycle _ corrected => correctedOk corrected
  | .rowMapOut _ _ row => decide (row < 1024)
  | .spadUe _ _ row _ => decide (row < 1024)
  | .remoteAccessArrive _ => true
  | .remoteCommitFlit _ => true
  | .creditReturn _ => true
  | .nocSignalArrive _ => true
  | .lockQuarantineClear _ _ => true
  | .jobEnd _ => true
  | .switchHoldExpiry _ => true
  | .switchPark _ => true
  | .switchComplete _ => true
  | .bargeGrant _ _ _ => true
  | .cohortBoundary _ _ => true
  | .computeStart _ _ => true
  | .relayAckTimeout _ _ => true
  | .chunkCommit _ _ => true
  | .runMessage _ r => r.wellFormed
  | .bargeReceive _ _ _ bytes _ => bytes.length % 64 == 0 && decide (bytes.length ≤ 4096)
  | .commitMessage _ c => c.wellFormed
  | .signalMessage _ _ dest sig => chipOk dest && sig.wellFormed
  | .creditMessage _ _ _ _ _ => true
  | .nack _ _ => true
  | .timeMark _ _ _ _ => true
  | .chunkAck _ dest src cohort chunk => chipOk dest && chipOk src && cohortOk cohort && halfOk chunk
  | .retarget _ dest failed survivor => chipOk dest && chipOk failed && chipOk survivor
  | .xferFail _ dest _ cause => chipOk dest && decide (cause < 256)
  | .relayAck _ epoch cohort chunk => halfOk epoch && cohortOk cohort && halfOk chunk
  | .mirrorAck _ epoch cohort chunk => halfOk epoch && cohortOk cohort && halfOk chunk
  | .standDown _ epoch cause => halfOk epoch && decide (cause < 256)
  | .retract _ dest cohort chunk src _ _ => chipOk dest && cohortOk cohort && halfOk chunk && chipOk src
  | .checkToken _ dest cohort chunk src rate _ => chipOk dest && cohortOk cohort && halfOk chunk && chipOk src && decide (rate ≤ 4)
  | .heartbeat _ state epoch sender seq _ => decide (state < 8) && halfOk epoch && chipOk sender && halfOk seq
  | .witnessPing _ route epoch sender seq target _ => decide (route < 2) && halfOk epoch && chipOk sender && halfOk seq && chipOk target
  | .witnessEcho _ route state epoch sender seq target _ => decide (route < 2) && decide (state < 8) && halfOk epoch && chipOk sender && halfOk seq && chipOk target
  | .digestExchange _ _ digest _ => digest.length == 32
  | .codewordUncorrectable _ _ => true
  | .flitRelease _ _ _ => true
  | .linkCreditReturn _ => true
  | .timeMarkSend _ => true
  | .heartbeatSend _ => true
  | .linkTrainingStep _ f => decide (f.lanes < 16) && chipOk f.peerChip && decide (f.peerPort < 36)
  | .linkTrainTimeout _ => true
  | .linkFailure _ => true
  | .noParentTimeout => true
  | .linkVariantSwitch _ => true
  | .timeInEdge => true
  | .timeOutPulse => true
  | .twinHbInEdge => true
  | .quietWitnessPing => true
  | .witnessTimeout _ => true
  | .twinDecision _ => true
  | .restoreComplete => true
  | .recoveryWindow _ _ => true
  | .selfCheckFail _ => true
  | .handoverTime => true
  | .remirrorStart => true
  | .checkTimerExpiry _ id => decide (id < 256)
  | .wharfTrigEdge => true
  | .wharfStartEdge _ => true
  | .frameComplete _ _ _ => true
  | .wharfBoundary _ _ _ => true
  | .txFrameOpening _ => true
  | .slipLimitWindow => true
  | .refWindow _ _ => true
  | .refNoEdge _ => true
  | .bclkContend _ => true
  | .wharfOutputEnable _ => true
  | .wharfRoleSwap _ => true
  | .hbmRefresh _ _ => true
  | .hbmUe addr _ => decide (addr < deviceBytes)
  | .fullLoadInterval minus plus => minus.length == 128 && plus.length == 128
  | .digestSegmentDone _ model _ => halfOk model
  | .chipSuspectExpiry => true
  | .censusLatch => true
  | .censusForward _ t id radius => decide (t < 2 ^ 64) && halfOk id && decide (radius < 15)
  | .maintRelease activity => activityOk activity
  | .maintGrant activity => activityOk activity
  | .maintUrgent activity => activityOk activity
  | .maintForced activity => activityOk activity
  | .maintForcedRepeat activity => activityOk activity
  | .maintDone activity => activityOk activity
  | .dredgeRead r => decide (r.block < 16384) && decide (r.page < 256)
  | .dredgeIntervalUpdate => true
  | .ledgerWriteDue => true
  | .nandTempRead _ _ => true
  | .flashWearReport => true
  | .signatureFlush => true
  | .ringCheckpoint => true
  | .flashOpFail block _ => decide (block < 22528)
  | .commandTimeout _ _ => true
  | .retractedRecordAtBound _ _ => true
  | .hbmSelfRefreshExit => true
  | .configRequest _ _ offset _ => decide (offset < 4096) && offset % 4 == 0
  | .timeNowRead _ _ => true
  | .jtagTckEdge _ _ => true
  | .jtagTapReset => true
  | .i3cEnec => true

end Sys2Proof
end

