-- ==== Sys2Proof/Tests/Slice0.lean ====
section
/-! SUPPORT. The package's own tests: for each obligation with hypotheses a theorem that shows states and operands that meet them (one
witness for each clause), ill-formed commands that the check refuses, and small steps against the spec's own numbers. -/

namespace Sys2Proof.Tests

open Sys2Proof Sys2Proof.Machine

set_option Elab.async false

/-- A chip after bring-up (R674), its physical function's rings enabled. -/
def work : State :=
  { State.reset with rst := { ready := true, phase := 4 }, fns := [(0, { sqEn := true, cqEn := true })] }

/-- A command packet's content as function 0's ring gives it. -/
def cmd (op : Nat) (ps : List Word) (part : Nat := 0xFF) (job : Nat := 0) : Cmd :=
  { origin := .ring 0, opcode := op, partition := part, checkOnly := false, seq := 1, job := job, tagLo := 0, tagHi := 0, payload := ps,
    crc := 0, readAt := 0 }

/-- `s` with one accepted command. -/
def given (s : State) (c : Cmd) : State := { s with accepted := [c] }

/-- A firmware image of a newer security version. -/
def newerImage : FwImage := { magic := 0x57464B4F, device := 0x3612, version := 2, svn := 1, keyOk := true, sigOk := true }


/-- The state an outcome answers. -/
def after : Outcome → State
  | .next t => t
  | _ => State.reset

/-- An image with one cohort of four rows and a chunk of ten milliseconds. -/
def plan : Image :=
  { (default : Image) with
    shape := { (default : StreamShape) with periodMs := 10, n := 160, steps := 1 }
    cohorts := [{ (default : CohortSpec) with rows := 4, hostBudget := 4, wharfBudget := 4 }]
    rateMax := 6, flags := [false, false, false, true], placements := [{ (default : Placement) with resident := [(0, 0)] }] }

/-- A job in state `st` built from `plan`, its cohort 0 at `h`. -/
def task (st : JobState) (h : Cohort := {}) : Job := { state := st, image := plan, cohorts := [(0, h)] }

/-- The working chip with job 0. -/
def busy (b : Job) : State := { work with jobs := [(0, b)] }

/-- A LIVE host-fed stream of job 0. -/
def flow : Stream := { adm := { (default : Admission) with intakeLog2 := 2, resultLog2 := 2 }, state := .live, planned := .live }

/-- The chip with job 0 running and stream 0. -/
def fed (st : Stream) : State := { busy (task .running) with streams := [(0, st)] }

/-- A chunk at a stream's doorbell. -/
def chunk0 : Chunk := { seq := 0, arrived := 0, inBerth := false, endMark := false, valid := 0, tag := 0, bad := 0 }

/-- A good intake entry for it. -/
def entry0 : IntakeEntry := { endMark := false, seq := 0, valid := 0, tag := 0, reservedOk := true, dmaOk := true, samples := [] }

/-- The working chip with link `l` UP. -/
def linked (l : Nat) (k : LinkSt := {}) : State := { work with links := [(l, { k with state := .up })] }

/-- A data transfer of `n` barges into a pound of core 0. -/
def dataRun (n : Nat) : Run :=
  { vc := 0, xfer := 5, srcChip := 1, srcCore := 0, destChip := 0, barges := n, dest := .plane 0 default, retain := false, cohort := 0, chunk := 0, t0 := 0 }

/-- Core 0 with pound 0 over all its barges and `bs` in its scratchpad; its matrix engine's clock runs. -/
def ground (bs : List Host.Cell := []) : CoreSt :=
  { spad := { bytes := { cells := bs }, pounds := [(0, { valid := true, bound := 255, remoteW := true, remoteR := true })] }, me := { gated := false } }

/-- Job 0 runs, and `k` is its core 0 with one command of `ws` at the head of queue `q`. -/
def posted (q : Nat) (ws : List Word) (k : CoreSt := ground) : State :=
  { busy (task .running) with cores := [(0, { k with queues := [(q, [{ words := ws }])] }), (1, ground)] }

/-- Core 0 of the working chip. -/
def atCore (k : CoreSt) (up : Nat := 0) : State := { busy (task .running) with cores := [(0, k)], time := { up := up } }

/-- A command that runs. -/
def going (q : Nat) (es : List Eff) : Running :=
  { queue := q, job := 0, entry := { words := [] }, effects := es, nonpre := false, claims := 0, dest := [], cycles := 0 }

set_option maxRecDepth 100000 in
/-- What `Obligations.IdleStepIsANanosecond` assumes can be met, clause by clause. -/
theorem test_hyps_IdleStepIsANanosecond :
    (∃ (s : State), s.pending = [] ∧ s.rst.watchdogAt = none ∧ (∀ c < 24, (s.core c).overflows = [])) := by
  refine ⟨work, ?_⟩
  all_goals and_intros
  all_goals decide +kernel

set_option maxRecDepth 100000 in
/-- What `Obligations.CoreMapStaysPermutation` assumes can be met, clause by clause. -/
theorem test_hyps_CoreMapStaysPermutation :
    (∃ (s : State) (t : State), MapOk s ∧ step s = .next t) := by
  refine ⟨{ State.reset with pending := [.jtagTapReset] }, after (step { State.reset with pending := [.jtagTapReset] }), ?_⟩
  all_goals and_intros
  all_goals first | rfl | exact List.all_eq_true.mp rfl

set_option maxRecDepth 100000 in
/-- What `Obligations.JtagStaysClosed` assumes can be met, clause by clause. -/
theorem test_hyps_JtagStaysClosed :
    (∃ (s : State) (t : State), JtagClosed s ∧ step s = .next t) := by
  refine ⟨{ State.reset with pending := [.jtagTapReset], flash := { sealFuses := 2 } }, after (step
      { State.reset with pending := [.jtagTapReset], flash := { sealFuses := 2 } }), ?_⟩
  all_goals and_intros
  all_goals first | rfl | decide +kernel

set_option maxRecDepth 100000 in
/-- What `Obligations.HbmStaysCanonical` assumes can be met, clause by clause. -/
theorem test_hyps_HbmStaysCanonical :
    (∃ (s : State) (t : State), s.hbm.wf = true ∧ step s = .next t) := by
  refine ⟨{ State.reset with pending := [.jtagTapReset], hbm := { cells := [(5, 1)] } }, after (step
      { State.reset with pending := [.jtagTapReset], hbm := { cells := [(5, 1)] } }), ?_⟩
  all_goals and_intros
  all_goals first | rfl | decide +kernel

set_option maxRecDepth 100000 in
/-- What `Obligations.OnlyNamedCommandsWriteMemory` assumes can be met, clause by clause. -/
theorem test_hyps_OnlyNamedCommandsWriteMemory :
    (∃ (i : Instr) (s : State) (t : State), exec i s = .next t ∧ mayRestart i = false) ∧
    (∃ (i : Instr) (s : State) (t : State), exec i s = .next t ∧ mayRestart i = false ∧ storesHbm i = false) ∧
    (∃ (i : Instr) (s : State) (t : State), exec i s = .next t ∧ mayRestart i = false ∧ storesTags i = false) := by
  refine ⟨⟨.jtagTapReset, work, after (exec .jtagTapReset work), ?_⟩,
    ⟨.jtagTapReset, work, after (exec .jtagTapReset work), ?_⟩,
    ⟨.jtagTapReset, work, after (exec .jtagTapReset work), ?_⟩⟩
  all_goals and_intros
  all_goals first | rfl | decide +kernel

set_option maxRecDepth 100000 in
/-- What `Obligations.ResetPinsAndBringup` assumes can be met, clause by clause. -/
theorem test_hyps_ResetPinsAndBringup :
    (∃ (s : State), s.rst.porLow = true ∧ s.rst.coldPend = true ∧ s.rst.perstLow = false) ∧
    (∃ (s : State), s.rst.perstLow = true ∧ s.rst.porLow = false ∧ s.rst.coldPend = false ∧ s.rst.thermHold = false ∧ s.rst.railFault =
      false) ∧
    (∃ (s : State), s.rst.perstLow = false ∧ s.rst.thermHold = false ∧ s.rst.railFault = false) ∧
    (∃ (s : State), s.rst.porLow = false ∧ s.rst.perstLow = false ∧ s.rst.thermHold = false ∧ s.rst.railFault = false ∧ s.rst.quiesce = none
      ∧ s.rst.watchdogAt = none ∧ s.rst.ready = false ∧ s.rst.stop = 0 ∧ s.rst.phase = 0) ∧
    (∃ (s : State) (r : PhaseReport), s.rst.porLow = false ∧ s.rst.perstLow = false ∧ s.rst.thermHold = false ∧ s.rst.railFault = false ∧
      s.rst.quiesce = none ∧ s.rst.watchdogAt = none ∧ s.rst.ready = false ∧ s.rst.stop = 0 ∧ s.rst.phase = 1 ∧ r.anchorsOk = false) ∧
    (∃ (s : State), s.rst.porLow = false ∧ s.rst.perstLow = false ∧ s.rst.thermHold = false ∧ s.rst.railFault = false ∧ s.rst.quiesce = none
      ∧ s.rst.watchdogAt = none ∧ s.rst.ready = false ∧ s.rst.stop = 0 ∧ s.rst.phase = 2) ∧
    (∃ (s : State), s.rst.porLow = false ∧ s.rst.perstLow = false ∧ s.rst.thermHold = false ∧ s.rst.railFault = false ∧ s.rst.quiesce = none
      ∧ s.rst.watchdogAt = none ∧ s.rst.ready = false ∧ s.rst.stop = 0 ∧ s.rst.phase = 3) := by
  refine ⟨⟨{ State.reset with rst := { porLow := true, coldPend := true } }, ?_⟩,
    ⟨{ State.reset with rst := { perstLow := true } }, ?_⟩,
    ⟨work, ?_⟩,
    ⟨{ State.reset with rst := { phase := 0 } }, ?_⟩,
    ⟨{ State.reset with rst := { phase := 1 } }, { anchorsOk := false }, ?_⟩,
    ⟨{ State.reset with rst := { phase := 2 } }, ?_⟩,
    ⟨{ State.reset with rst := { phase := 3 } }, ?_⟩⟩
  all_goals and_intros
  all_goals decide +kernel

set_option maxRecDepth 100000 in
/-- What `Obligations.FailuresRestartTheChip` assumes can be met, clause by clause. -/
theorem test_hyps_FailuresRestartTheChip :
    (∃ (s : State), Working s ∧ s.rst.watchdogAt = none) ∧
    (∃ (s : State), Working s ∧ s.mgmt.thermtrip = false ∧ (∃ e ∈ s.mgmt.hot, 3 ≤ e.2)) ∧
    (∃ (s : State), s.rst.porLow = false ∧ s.rst.railFault = false) ∧
    (∃ (s : State), Working s ∧ s.aloneWithStreams = false) ∧
    (∃ (s : State), Working s ∧ s.aloneWithStreams = false) := by
  refine ⟨⟨work, ?_⟩,
    ⟨{ work with mgmt := { hot := [(0, 3)] } }, ?_⟩,
    ⟨work, ?_⟩,
    ⟨work, ?_⟩,
    ⟨work, ?_⟩⟩
  all_goals and_intros
  all_goals decide +kernel

set_option maxRecDepth 100000 in
/-- What `Obligations.UpkeepOfTheChip` assumes can be met, clause by clause. -/
theorem test_hyps_UpkeepOfTheChip :
    (∃ (s : State) (v : FwImage), s.flash.image s.flash.fwImage = some v ∧ s.rst.ready = true ∧ s.flash.runningSince + 600000000000 ≤
      s.time.up ∧ s.flash.svn < v.svn) ∧
    (∃ (s : State), s.rst.thermHold = false) ∧
    (∃ (s : State) (c : Fin 24), (s.core c).spad.maps = []) ∧
    (∃ (s : State) (c : Fin 24) (b : Fin 64) (row : Nat), 3 ≤ ((Table.look [] (s.core c).spad.rowCe (b * 1024 + row)).filter (fun t =>
      decide (s.time.up < t + dayNs))).length ∧ (∀ m ∈ (s.core c).spad.maps, ¬ (m.bank = b.val ∧ m.row = row)) ∧ Table.look 8 (s.core
      c).spad.spares b ≠ 0) ∧
    (∃ (s : State) (c : Fin 24) (b : Fin 64) (row : Nat), 3 ≤ ((Table.look [] (s.core c).spad.rowCe (b * 1024 + row)).filter (fun t =>
      decide (s.time.up < t + dayNs))).length ∧ (∀ m ∈ (s.core c).spad.maps, ¬ (m.bank = b.val ∧ m.row = row)) ∧ Table.look 8 (s.core
      c).spad.spares b = 0) := by
  refine ⟨⟨{ work with time := { up := 600000000000 }, flash := { fwA := some newerImage } }, newerImage, ?_⟩,
    ⟨work, ?_⟩,
    ⟨work, 0, ?_⟩,
    ⟨{ work with cores := [(0, { spad := { rowCe := [(0, [0, 0, 0])] } })] }, 0, 0, 0, ?_⟩,
    ⟨{ work with cores := [(0, { spad := { rowCe := [(0, [0, 0, 0])], spares := [(0, 0)] } })] }, 0, 0, 0, ?_⟩⟩
  all_goals and_intros
  all_goals decide +kernel

set_option maxRecDepth 100000 in
/-- What `Obligations.FunctionsResetAndEnable` assumes can be met, clause by clause. -/
theorem test_hyps_FunctionsResetAndEnable :
    (∃ (s : State), s.crs = false ∧ (∀ j, (s.job j).state = .free)) ∧
    (∃ (s : State) (f : Fin 13), f.val ≠ 0 ∧ s.crs = false ∧ (∀ j ∈ jobsOf (f - 1), (s.job j).state = .free)) ∧
    (∃ (s : State), s.crs = false ∧ s.rst.stop = 0 ∧ s.vfEnable = false) := by
  refine ⟨⟨work, ?_⟩,
    ⟨work, 1, ?_⟩,
    ⟨work, ?_⟩⟩
  all_goals and_intros
  all_goals first | decide +kernel | exact fun _ => rfl

set_option maxRecDepth 100000 in
/-- What `Obligations.HostReadsAndWindows` assumes can be met, clause by clause. -/
theorem test_hyps_HostReadsAndWindows :
    (∃ (s : State), s.crs = false ∧ bitAt s.flash.sealFuses 3 = false ∧ s.barOpen = true) ∧
    (∃ (s : State) (o : Fin 1073741824) (bs : List Byte), s.crs = false ∧ bitAt s.flash.sealFuses 3 = false ∧ s.barOpen = true ∧ bs.length ≤
      2 ^ 30 - o) ∧
    (∃ (s : State), bitAt s.flash.sealFuses 3 = true) ∧
    (∃ (s : State) (f : Fin 13) (o : Nat), s.crs = false ∧ s.enumerated f = true ∧ o < 4096) ∧
    (∃ (s : State), s.crs = true) ∧
    (∃ (s : State) (f : Fin 13), s.crs = false ∧ s.enumerated f = true ∧ s.barOpen = true) ∧
    (∃ (s : State) (f : Fin 13), s.crs = false ∧ s.enumerated f = true ∧ s.barOpen = true) := by
  refine ⟨⟨work, ?_⟩,
    ⟨work, 0, [1], ?_⟩,
    ⟨{ work with flash := { sealFuses := 8 } }, ?_⟩,
    ⟨work, 0, 0, ?_⟩,
    ⟨State.reset, ?_⟩,
    ⟨work, 0, ?_⟩,
    ⟨work, 0, ?_⟩⟩
  all_goals and_intros
  all_goals decide +kernel

set_option maxRecDepth 100000 in
/-- What `Obligations.RegisterWritesAndRingSetup` assumes can be met, clause by clause. -/
theorem test_hyps_RegisterWritesAndRingSetup :
    (∃ (s : State) (f : Fin 13), s.barOpen = true ∧ s.enumerated f = true ∧ (s.fn f).sqEn = false) ∧
    (∃ (s : State) (f : Fin 13), s.barOpen = true ∧ s.enumerated f = true ∧ (s.fn f).sqEn = true) ∧
    (∃ (s : State), s.barOpen = true ∧ bitAt s.flash.sealFuses 3 = false) ∧
    (∃ (s : State), s.barOpen = true) ∧
    (∃ (s : State) (f : Fin 13) (w : Word), s.barOpen = true ∧ s.enumerated f = true ∧ s.rst.afterReply = none ∧ 4 ≤ bits w.toNat 0 4 ∧ bits
      w.toNat 0 4 ≤ 12 ∧ bitAt w.toNat 31 = true ∧ (s.fn f).sqEn = false) ∧
    (∃ (s : State) (f : Fin 13) (w : Word), s.barOpen = true ∧ s.enumerated f = true ∧ s.rst.afterReply = none ∧ 4 ≤ bits w.toNat 0 4 ∧ bits
      w.toNat 0 4 ≤ 12 ∧ bitAt w.toNat 31 = true ∧ (s.fn f).cqEn = false ∧ (s.fn f).waiting = [] ∧ (s.fn f).unread = []) := by
  refine ⟨⟨{ work with fns := [] }, 0, ?_⟩,
    ⟨work, 0, ?_⟩,
    ⟨work, ?_⟩,
    ⟨work, ?_⟩,
    ⟨{ work with fns := [] }, 0, 0x80000004, ?_⟩,
    ⟨{ work with fns := [] }, 0, 0x8000000C, ?_⟩⟩
  all_goals and_intros
  all_goals decide +kernel

set_option maxRecDepth 100000 in
/-- What `Obligations.BadDoorbellsAreCounted` assumes can be met, clause by clause. -/
theorem test_hyps_BadDoorbellsAreCounted :
    (∃ (s : State) (f : Fin 13) (v : Word), s.barOpen = true ∧ s.enumerated f = true ∧ bits v.toNat 12 20 = 0 ∧ ((s.fn f).sqEn = false ∨ 2 ^
      (s.fn f).sqLog2.toNat ≤ v.toNat)) ∧
    (∃ (s : State) (f : Fin 13) (v : Word), s.barOpen = true ∧ s.enumerated f = true ∧ bits v.toNat 12 20 = 0 ∧ ((s.fn f).cqEn = false ∨ 2 ^
      (s.fn f).cqLog2.toNat ≤ v.toNat)) ∧
    (∃ (s : State) (f : Fin 13) (v : Word), s.barOpen = true ∧ s.enumerated f = true ∧ bits v.toNat 12 20 = 0 ∧ (s.fn f).sqEn = true ∧
      v.toNat < 2 ^ (s.fn f).sqLog2.toNat ∧ v.toNat = (s.fn f).sqHead ∧ (s.fn f).sqTail = (s.fn f).sqHead ∧ (s.fn f).unread = [] ∧
      s.rst.afterReply = none) := by
  refine ⟨⟨work, 0, 16, ?_⟩,
    ⟨work, 0, 16, ?_⟩,
    ⟨work, 0, 0, ?_⟩⟩
  all_goals and_intros
  all_goals decide +kernel

set_option maxRecDepth 100000 in
/-- What `Obligations.RingsTakeAndWrite` assumes can be met, clause by clause. -/
theorem test_hyps_RingsTakeAndWrite :
    (∃ (s : State) (f : Fin 13) (v : Word), s.barOpen = true ∧ s.enumerated f = true ∧ bits v.toNat 12 20 = 0 ∧ (s.fn f).sqEn = true ∧
      v.toNat < 2 ^ (s.fn f).sqLog2.toNat ∧ s.rst.afterReply = none) ∧
    (∃ (s : State) (f : Fin 13) (v : Word), s.barOpen = true ∧ s.enumerated f = true ∧ bits v.toNat 12 20 = 0 ∧ (s.fn f).cqEn = true ∧
      v.toNat < 2 ^ (s.fn f).cqLog2.toNat ∧ s.rst.afterReply = none ∧ (s.fn f).waiting = [] ∧ (s.fn f).unread = []) ∧
    (∃ (s : State) (f : Fin 13) (i : CqItem), s.ringsOpen = true ∧ (s.fn f).waiting = [i] ∧ (s.fn f).room ≠ 0 ∧ (s.fn f).unread = [] ∧
      s.rst.afterReply = none ∧ Table.look false s.msixOn f = false) := by
  refine ⟨⟨work, 0, 15, ?_⟩,
    ⟨work, 0, 15, ?_⟩,
    ⟨{ work with fns := [(0, { cqEn := true, waiting := [{ isEvent := false, words := [] }] })] }, 0, { isEvent := false, words := [] }, ?_⟩⟩
  all_goals and_intros
  all_goals decide +kernel

set_option maxRecDepth 100000 in
/-- What `Obligations.CheckOnlyHasNoEffect` assumes can be met, clause by clause. -/
theorem test_hyps_CheckOnlyHasNoEffect :
    (∃ (i : Instr) (via : Via) (op : Nat) (sel : Cmd → Bool) (s : State) (s1 : State) (c : Cmd), commandRow i = some (via, op, sel) ∧
      s.taken via op sel = some (s1, c) ∧ c.checkOnly = true) := by
  refine ⟨.devQuery (.ring 0), .ring 0, 0x0101, fun _ => true, given work { (cmd 0x0101 []) with checkOnly := true }, work,
      { (cmd 0x0101 []) with checkOnly := true }, ?_⟩
  all_goals and_intros
  all_goals first | rfl | decide +kernel

set_option maxRecDepth 100000 in
/-- What `Obligations.DeviceCommandsComplete` assumes can be met, clause by clause. -/
theorem test_hyps_DeviceCommandsComplete :
    (∃ (s : State) (s1 : State) (via : Via) (c : Cmd), Runs s via 0x0101 (fun _ => true) s1 c ∧ s1.rst.stop ≠ 1) ∧
    (∃ (s : State) (s1 : State) (via : Via) (c : Cmd), Runs s via 0x0102 (fun _ => true) s1 c ∧ (c.p 2 = 2 ∨ c.p 2 = 3) ∧ (∀ j, (s1.job
      j).state ≠ .running ∧ (s1.job j).state ≠ .parked)) ∧
    (∃ (s : State) (s1 : State) (via : Via) (c : Cmd), Runs s via 0x0103 (fun c => c.action != 1) s1 c ∧ c.p 0 = 0 ∧ s1.pair.state =
      .unbound) ∧
    (∃ (s : State) (s1 : State) (via : Via) (c : Cmd) (k : Nat), Runs s via 0x0103 (fun c => c.action == 1) s1 c ∧ c.p 0 = 0x40000000 + k ∧
      k < 24 ∧ s1.live (partOfCore k) = []) ∧
    (∃ (s : State) (s1 : State) (via : Via) (c : Cmd), Runs s via 0x0104 (fun c => c.action != 1) s1 c ∧ c.p 0 = 0 ∧ c.p 1 = 0) ∧
    (∃ (s : State) (s1 : State) (via : Via) (c : Cmd), Runs s via 0x0104 (fun c => c.action == 1) s1 c ∧ c.p 0 = 0x40000000 ∧ c.p 1 =
      0x5EA10C3D ∧ s1.flash.sealFuses < 16) := by
  refine ⟨⟨given (work) (cmd 0x0101 []), work, .ring 0, (cmd 0x0101 []), ?_⟩,
    ⟨given (work) (cmd 0x0102 [0, 0, 3]), work, .ring 0, (cmd 0x0102 [0, 0, 3]), ?_⟩,
    ⟨given (work) (cmd 0x0103 [0]), work, .ring 0, (cmd 0x0103 [0]), ?_⟩,
    ⟨given (work) (cmd 0x0103 [0x40000017]), work, .ring 0, (cmd 0x0103 [0x40000017]), 23, ?_⟩,
    ⟨given (work) (cmd 0x0104 [0, 0]), work, .ring 0, (cmd 0x0104 [0, 0]), ?_⟩,
    ⟨given (work) (cmd 0x0104 [0x40000000, 0x5EA10C3D]), work, .ring 0, (cmd 0x0104 [0x40000000, 0x5EA10C3D]), ?_⟩⟩
  all_goals and_intros
  all_goals first | decide +kernel | exact fun _ => ⟨nofun, nofun⟩

set_option maxRecDepth 100000 in
/-- What `Obligations.CommandsWithoutEffect` assumes can be met, clause by clause. -/
theorem test_hyps_CommandsWithoutEffect :
    (∃ (i : Instr) (f : Fin 13) (op : Nat) (sel : Cmd → Bool) (s : State), commandRow i = some (.ring f, op, sel) ∧ s.accepted.find? (fun c
      => c.origin == .ring f && c.opcode == op && sel c) = none) ∧
    (∃ (s : State) (w : Wait) (n : Nat), s.waits = [w] ∧ s.accepted = [] ∧ w.cmd.origin = .ring n ∧ n < 13 ∧ s.late w.cmd = true) := by
  refine ⟨⟨.devQuery (.ring 12), 12, 0x0101, fun _ => true, work, ?_⟩,
    ⟨{ work with time := { up := 10000001 }, waits := [{ cmd := { (cmd 0x0104 []) with seq := 7 }, kind := .data, since := 0 }] },
      { cmd := { (cmd 0x0104 []) with seq := 7 }, kind := .data, since := 0 }, 0, ?_⟩⟩
  all_goals and_intros
  all_goals first | decide +kernel | exact rfl

set_option maxRecDepth 100000 in
/-- What `Obligations.PartitionCommandsComplete` assumes can be met, clause by clause. -/
theorem test_hyps_PartitionCommandsComplete :
    (∃ (s : State) (s1 : State) (via : Via) (c : Cmd) (b : Nat), Runs s via 0x0201 (fun _ => true) s1 c ∧ c.configureBad = none ∧
      s1.resident c.partition = [] ∧ s1.noSpare c.partition = false ∧ (∀ k < 4, (s1.stack k).trained = true) ∧ ((List.range 12).map (fun n
      => if n ≠ c.partition ∧ (s1.part n).configured then (s1.part n).hbmGib else 0)).sum + c.f 0 0 8 ≤ 80 ∧ s1.hbmBase c.partition (c.f 0 0
      8) = some b) ∧
    (∃ (s : State) (s1 : State) (via : Via) (c : Cmd), Runs s via 0x0202 (fun _ => true) s1 c ∧ firstBad [c.stray [0x033F01FF, 0x7F], req
      (c.f 0 0 9 ≤ 256) 8, req (if c.f 0 24 2 = 3 then c.f 0 16 6 < 32 || c.f 0 16 6 == 0x3F else c.f 0 16 6 == 0) 8, req (1 ≤ c.f 1 0 7 &&
      c.f 1 0 7 ≤ 64) 9] = none ∧ s1.weirSums c.partition ((s1.plannedPart c.partition).setWeir (c.f 0 24 2) (c.f 0 16 6) (c.f 0 0 9) (c.f 1
      0 7) s1.time.up) (c.f 0 24 2) (c.f 0 16 6) = true ∧ s1.live c.partition = [] ∧ s1.jobsIn c.partition .running = []) ∧
    (∃ (s : State) (s1 : State) (via : Via) (c : Cmd), Runs s via 0x0205 (fun _ => true) s1 c ∧ (s1.job c.job).state ≠ .free) ∧
    (∃ (s : State) (s1 : State) (via : Via) (c : Cmd), Runs s via 0x0206 (fun _ => true) s1 c ∧ c.p 0 < 96 ∧ s1.preemptRefusal c = none ∧
      s1.switchHeld (c.job / 8) (c.f 0 0 7) = false) ∧
    (∃ (s : State) (s1 : State) (via : Via) (c : Cmd), Runs s via 0x0207 (fun _ => true) s1 c ∧ c.p 0 < 2 ∧ (s1.job c.job).state = .loaded) ∧
    (∃ (s : State) (s1 : State) (via : Via) (c : Cmd), Runs s via 0x0207 (fun _ => true) s1 c ∧ c.p 0 < 2 ∧ (s1.job c.job).state = .running) ∧
    (∃ (s : State) (s1 : State) (via : Via) (c : Cmd), Runs s via 0x0208 (fun _ => true) s1 c) := by
  refine ⟨⟨given ({ work with hbmStacks := [(0, { trained := true }), (1, { trained := true }), (2, { trained := true }), (3, { trained := true })] })
      (cmd 0x0201 [0x00010001, 1, 11941512, 0] 0),
      { work with hbmStacks := [(0, { trained := true }), (1, { trained := true }), (2, { trained := true }), (3, { trained := true })] },
      .ring 0, (cmd 0x0201 [0x00010001, 1, 11941512, 0] 0), 0, ?_⟩,
    ⟨given (work) (cmd 0x0202 [20, 16] 0), work, .ring 0, (cmd 0x0202 [20, 16] 0), ?_⟩,
    ⟨given (busy (task .loaded)) (cmd 0x0205 [] 0), busy (task .loaded), .ring 0, (cmd 0x0205 [] 0), ?_⟩,
    ⟨given ({ work with jobs := [(0, task .running), (1, task .loaded)], parts := [(0, { preemptEn := true })] }) (cmd 0x0206 [1] 0),
      { work with jobs := [(0, task .running), (1, task .loaded)], parts := [(0, { preemptEn := true })] }, .ring 0, (cmd 0x0206 [1] 0), ?_⟩,
    ⟨given (busy (task .loaded)) (cmd 0x0207 [1] 0), busy (task .loaded), .ring 0, (cmd 0x0207 [1] 0), ?_⟩,
    ⟨given (busy (task .running)) (cmd 0x0207 [0] 0), busy (task .running), .ring 0, (cmd 0x0207 [0] 0), ?_⟩,
    ⟨given (work) (cmd 0x0208 [] 0), work, .ring 0, (cmd 0x0208 [] 0), ?_⟩⟩
  all_goals and_intros
  all_goals decide +kernel

set_option maxRecDepth 100000 in
/-- What `Obligations.JobLoadAssignsAJob` assumes can be met, clause by clause. -/
theorem test_hyps_JobLoadAssignsAJob :
    (∃ (s : State) (s1 : State) (via : Via) (c : Cmd) (m : ModelPkg) (i : Image) (q : Placement) (j : Nat), Runs s via 0x0203 (fun _ =>
      true) s1 c ∧ s1.flash.models.any (fun x => x.pkg.id == c.f 0 16 16) = true ∧ c.p 1 < 4 ∧ s1.imageOf c = some (m, i, q) ∧ (s1.part
      c.partition).configured = true ∧ s1.resident c.partition = [] ∧ (jobsOf c.partition).find? (fun n => (s1.job n).state == .free) = some
      j ∧ s1.loaded.any (fun l => l.part == c.partition && l.model == m.id) = true ∧ q.resident = [(m.id, i.index)] ∧ i.contextLegal = true
      ∧ (bitAt (c.p 1) 0 = true → i.guardBuild = true) ∧ c.calBad i = none ∧ (c.bashabaOk i && i.sizesLegal && i.hashLegal && i.kv.all
      (·.legal) && m.tables.all (fun t => tableAbsent t || tableValid t)) = true ∧ (s1.part c.partition).preemptEn = false ∧
      s1.integ.devRate ≤ i.rateMax ∧ ((coresOf c.partition).all (fun k => s1.poundsFit k (i.coreSpec k) && s1.locksFit k (i.coreSpec k) &&
      s1.creditsFit k (i.coreSpec k)) && (s1.part c.partition).poolsFit i) = true) := by
  refine ⟨given
      ({ work with flash := { models := [{ pkg := { (default : ModelPkg) with images := [plan] } }] }, parts := [(0, { configured := true })], loaded := [{ part := 0, model := 0, first := 0 }] })
      (cmd 0x0203 [0, 0] 0),
      { work with flash := { models := [{ pkg := { (default : ModelPkg) with images := [plan] } }] }, parts := [(0, { configured := true })], loaded := [{ part := 0, model := 0, first := 0 }] },
      .ring 0, (cmd 0x0203 [0, 0] 0), { (default : ModelPkg) with images := [plan] }, plan,
      { (default : Placement) with resident := [(0, 0)] }, 0, ?_⟩
  all_goals and_intros
  all_goals decide +kernel

set_option maxRecDepth 100000 in
/-- What `Obligations.JobStartRunsTheJob` assumes can be met, clause by clause. -/
theorem test_hyps_JobStartRunsTheJob :
    (∃ (s : State) (s1 : State) (via : Via) (c : Cmd), Runs s via 0x0204 (fun _ => true) s1 c ∧ (s1.job c.job).state = .loaded ∧ ((s1.job
      c.job).image.spansChips = true → s1.time.locked = true) ∧ (s1.part (partOfJob c.job)).weirsSet = 0xF ∧ (s1.part (partOfJob
      c.job)).meets (s1.job c.job).image = true ∧ s1.veFits c.job = true ∧ s1.mgmt.selfRefresh = false ∧ s1.quarantined c.job = false) := by
  refine ⟨given ({ busy (task .loaded) with parts := [(0, { weirsSet := 0xF })] }) (cmd 0x0204 [] 0),
      { busy (task .loaded) with parts := [(0, { weirsSet := 0xF })] }, .ring 0, (cmd 0x0204 [] 0), ?_⟩
  all_goals and_intros
  all_goals decide +kernel

set_option maxRecDepth 100000 in
/-- What `Obligations.JobStartNeedsAllWeirs` assumes can be met, clause by clause. -/
theorem test_hyps_JobStartNeedsAllWeirs :
    (∃ (s : State) (s1 : State) (via : Via) (c : Cmd), Runs s via 0x0204 (fun _ => true) s1 c ∧ ((s1.job c.job).image.spansChips = true →
      s1.time.locked = true) ∧ ((s1.job c.job).state = .loaded ∨ ((s1.job c.job).state = .parked ∧ s1.jobsIn (partOfJob c.job) .running =
      [])) ∧ (s1.part (partOfJob c.job)).weirsSet ≠ 0xF) := by
  refine ⟨given ({ busy (task .loaded) with parts := [(0, { weirsSet := 0x7 })] }) (cmd 0x0204 [] 0),
      { busy (task .loaded) with parts := [(0, { weirsSet := 0x7 })] }, .ring 0, (cmd 0x0204 [] 0), ?_⟩
  all_goals and_intros
  all_goals decide +kernel

set_option maxRecDepth 100000 in
/-- What `Obligations.JobEventsComplete` assumes can be met, clause by clause. -/
theorem test_hyps_JobEventsComplete :
    (∃ (s : State) (j : Fin 96), (s.job j).state = .running ∧ (∀ c ∈ coresOf (partOfJob j), (∀ r ∈ (s.core c).running, r.job ≠ j) ∧ (∀ q <
      4, ∀ e ∈ (s.core c).queue q, e.job ≠ j)) ∧ (∀ c ∈ coresOf (partOfJob j), ∀ e ∈ (s.core c).locks, e.2.valid = true → e.2.owner = j.val
      → e.2.cohort = 0x3F → e.2.asFound = true)) ∧
    (∃ (s : State) (j : Fin 96), (s.job j).state = .running ∧ (∀ c ∈ coresOf (partOfJob j), (∀ r ∈ (s.core c).running, r.job ≠ j) ∧ (∀ q <
      4, ∀ e ∈ (s.core c).queue q, e.job ≠ j)) ∧ (∃ c ∈ coresOf (partOfJob j), ∃ e ∈ (s.core c).locks, e.2.valid = true ∧ e.2.owner = j.val
      ∧ e.2.cohort = 0x3F ∧ e.2.asFound = false)) ∧
    (∃ (s : State) (p : Fin 12) (w : Wait), s.waits.find? (fun w => w.kind == .hold p) = some w ∧ w.cmd.job / 8 = p.val ∧ s.switchHeld p
      (w.cmd.f 0 0 7) = false ∧ s.preemptRefusal w.cmd = none) ∧
    (∃ (s : State) (p : Fin 12) (v : Nat) (i : Nat), (s.part p).switch = some { victim := some v, incoming := i, parkedAt := none } ∧
      partOfJob v = p.val ∧ s.stepOneDone p v = true) ∧
    (∃ (s : State) (p : Fin 12) (i : Nat), (s.part p).switch = some { victim := none, incoming := i, parkedAt := none }) ∧
    (∃ (s : State) (p : Fin 12) (v : Option Nat) (i : Nat) (at_ : Nat), (s.part p).switch = some
      { victim := v, incoming := i, parkedAt := some at_ } ∧ partOfJob i = p.val ∧ ((s.job i).state = .parked ∨ (s.job i).state = .loaded)) ∧
    (∃ (s : State) (p : Fin 12) (w : Fin 4) (n : Fin 32) (r : BargeReq), s.nextGrant p w = some r ∧ (w.val = 3 → r.link = n) ∧ Table.look 0
      (s.part p).held w ≤ s.time.up ∧ r.job < 96 ∧ r.bytes * 256 ≤ ((Table.look {} (s.part p).weirs r.key).refill r.key s.time.up).level) := by
  refine ⟨⟨busy (task .running), 0, ?_⟩,
    ⟨{ busy (task .running) with cores := [(0, { locks := [(0, { valid := true, cohort := 0x3F, fill := 1 })] })] }, 0, ?_⟩,
    ⟨{ work with jobs := [(0, task .running), (1, task .loaded)], parts := [(0, { preemptEn := true })], waits := [{ cmd := cmd 0x0206 [1] 0, kind := .hold 0, since := 0 }] },
      0, { cmd := cmd 0x0206 [1] 0, kind := .hold 0, since := 0 }, ?_⟩,
    ⟨{ work with jobs := [(0, task .running), (1, task .parked)], parts := [(0, { switch := some { victim := some 0, incoming := 1, parkedAt := none } })] },
      0, 0, 1, ?_⟩,
    ⟨{ work with parts := [(0, { switch := some { victim := none, incoming := 1, parkedAt := none } })] }, 0, 1, ?_⟩,
    ⟨{ work with jobs := [(0, task .running), (1, task .parked)], parts := [(0, { switch := some { victim := some 0, incoming := 1, parkedAt := some 0 } })] },
      0, some 0, 1, 0, ?_⟩,
    ⟨{ busy (task .running) with parts := [(0, { reqs := [{ weir := 0, job := 0, core := 0, cls := 0, since := 0, age := 0, bytes := 1, link := 0 }] })] },
      0, 0, 0, { weir := 0, job := 0, core := 0, cls := 0, since := 0, age := 0, bytes := 1, link := 0 }, ?_⟩⟩
  all_goals and_intros
  all_goals decide +kernel

set_option maxRecDepth 100000 in
/-- What `Obligations.StreamCommandsComplete` assumes can be met, clause by clause. -/
theorem test_hyps_StreamCommandsComplete :
    (∃ (s : State) (s1 : State) (via : Via) (c : Cmd) (k : Nat) (row : Nat) (i : Nat), Runs s via 0x0301 (fun _ => true) s1 c ∧ s1.openBad c
      = none ∧ (s1.pair.state = .mirrored ∨ s1.pair.state = .bound ∨ s1.pair.state = .unbound ∨ s1.pair.state = .solo ∨ s1.pair.state =
      .unmirrored) ∧ s1.forcedOn (partOfJob c.job) = none ∧ s1.placeFor c = some (k, row) ∧ s1.freeIndex = some i) ∧
    (∃ (s : State) (s1 : State) (via : Via) (c : Cmd) (st : Stream), Runs s via 0x0302 (fun _ => true) s1 c ∧ s1.twinCarries (c.p 0) = false
      ∧ s1.knownPair (c.p 0) = true ∧ s1.openHandle (c.p 0) = some st ∧ st.planned = .live ∧ st.adm.source ≠ .link) ∧
    (∃ (s : State) (s1 : State) (via : Via) (c : Cmd) (st : Stream), Runs s via 0x0303 (fun _ => true) s1 c ∧ s1.twinCarries (c.p 0) = false
      ∧ s1.knownPair (c.p 0) = true ∧ s1.openHandle (c.p 0) = some st ∧ st.planned = .paused ∧ st.adm.source ≠ .link) ∧
    (∃ (s : State) (s1 : State) (via : Via) (c : Cmd) (st : Stream), Runs s via 0x0304 (fun _ => true) s1 c ∧ s1.twinCarries (c.p 0) = false
      ∧ s1.knownPair (c.p 0) = true ∧ s1.openHandle (c.p 0) = some st ∧ (st.planned = .live ∨ st.planned = .paused) ∧ st.adm.source ≠ .link
      ∧ c.p 1 < 65536 ∧ c.p 1 ≤ (s1.job st.adm.job).image.shape.n) ∧
    (∃ (s : State) (s1 : State) (via : Via) (c : Cmd) (st : Stream), Runs s via 0x0306 (fun _ => true) s1 c ∧ s1.twinCarries (c.p 0) = false
      ∧ s1.knownPair (c.p 0) = true ∧ s1.openHandle (c.p 0) = some st) := by
  refine ⟨⟨given (busy (task .running)) (cmd 0x0301 [0x02200000, 0, 0, 0, 0, 0] 0), busy (task .running), .ring 0, (cmd 0x0301 [0x02200000, 0, 0, 0,
      0, 0] 0), 0, 0, 0, ?_⟩,
    ⟨given (fed flow) (cmd 0x0302 [0] 0), fed flow, .ring 0, (cmd 0x0302 [0] 0), flow, ?_⟩,
    ⟨given (fed { flow with state := .paused, planned := .paused }) (cmd 0x0303 [0] 0), fed { flow with state := .paused, planned := .paused },
      .ring 0, (cmd 0x0303 [0] 0), { flow with state := .paused, planned := .paused }, ?_⟩,
    ⟨given (fed flow) (cmd 0x0304 [0, 160] 0), fed flow, .ring 0, (cmd 0x0304 [0, 160] 0), flow, ?_⟩,
    ⟨given (fed flow) (cmd 0x0306 [0] 0), fed flow, .ring 0, (cmd 0x0306 [0] 0), flow, ?_⟩⟩
  all_goals and_intros
  all_goals decide +kernel

set_option maxRecDepth 100000 in
/-- What `Obligations.IntakeAndResultDoorbells` assumes can be met, clause by clause. -/
theorem test_hyps_IntakeAndResultDoorbells :
    (∃ (s : State) (f : Fin 13) (n : Fin 1024) (v : Word) (st : Stream), s.barOpen = true ∧ s.enumerated f = true ∧ v.toNat < 65536 ∧ s.slot
      f n = some st ∧ st.adm.source = .host ∧ (∀ q ∈ st.queued, q.seq ≠ v.toNat) ∧ (v.toNat + 65536 - st.nextSeq) % 65536 ≤ 2) ∧
    (∃ (s : State) (f : Fin 13) (n : Fin 1024) (v : Word) (st : Stream), s.barOpen = true ∧ s.enumerated f = true ∧ v.toNat < 65536 ∧ s.slot
      f n = some st ∧ st.adm.source = .host ∧ (∀ q ∈ st.queued, q.seq ≠ v.toNat) ∧ 2 < (v.toNat + 65536 - st.nextSeq) % 65536) ∧
    (∃ (s : State) (f : Fin 13) (v : Word), s.barOpen = true ∧ s.enumerated f = true ∧ v.toNat < 64) ∧
    (∃ (s : State) (f : Fin 13) (n : Fin 1024) (v : Word), s.barOpen = true ∧ s.enumerated f = true ∧ v.toNat < 64 ∧ s.slot f n = none) ∧
    (∃ (s : State) (n : Fin 1024) (e : IntakeEntry) (st : Stream) (q : Chunk), s.stream n = some st ∧ st.nextChunk = some q ∧ q.inBerth =
      false ∧ st.state = .live ∧ st.adm.source = .host ∧ (s.job st.adm.job).state = .running ∧ s.nextBoundary (s.job st.adm.job)
      st.adm.cohort s.time.now ≤ s.time.now + 20000 ∧ s.relays = false ∧ e.fault st.nextSeq (s.job st.adm.job).image.shape.n = 0) := by
  refine ⟨⟨fed flow, 0, 0, 2, flow, ?_⟩,
    ⟨fed flow, 0, 0, 3, flow, ?_⟩,
    ⟨work, 0, 63, ?_⟩,
    ⟨fed flow, 0, 1, 63, ?_⟩,
    ⟨{ fed { flow with queued := [chunk0] } with time := { now := 9980000 } }, 0, entry0, { flow with queued := [chunk0] }, chunk0, ?_⟩⟩
  all_goals and_intros
  all_goals decide +kernel

set_option maxRecDepth 100000 in
/-- What `Obligations.ChunkStepsComplete` assumes can be met, clause by clause. -/
theorem test_hyps_ChunkStepsComplete :
    (∃ (s : State) (j : Fin 96) (k : Fin 32), (s.job j).state = .running ∧ (s.job j).period ≠ 0 ∧ (k.val < (s.job j).own ∨ s.streamsIn j k ≠
      []) ∧ (((s.job j).cohort k).phase = .idle ∨ ((s.job j).cohort k).phase = .committed) ∧ ((s.job j).cohort k).recordsDue = false ∧
      ((s.job j).cohort k).bk < s.boundary (s.job j) k s.time.now ∧ (s.job j).startedAt ≤ s.boundary (s.job j) k s.time.now ∧ s.stepMoves j
      k (s.boundary (s.job j) k s.time.now) = false ∧ s.recoverable j k = []) ∧
    (∃ (s : State) (j : Fin 96) (k : Fin 32), (s.job j).state = .running ∧ (s.job j).period ≠ 0 ∧ (k.val < (s.job j).own ∨ s.streamsIn j k ≠
      []) ∧ (((s.job j).cohort k).phase = .idle ∨ ((s.job j).cohort k).phase = .committed) ∧ ((s.job j).cohort k).recordsDue = false ∧
      ((s.job j).cohort k).bk < s.boundary (s.job j) k s.time.now ∧ (s.job j).startedAt ≤ s.boundary (s.job j) k s.time.now ∧ s.stepMoves j
      k (s.boundary (s.job j) k s.time.now) = false ∧ s.recoverable j k ≠ []) ∧
    (∃ (s : State) (j : Fin 96) (k : Fin 32), (s.job j).state = .running ∧ ((s.job j).cohort k).phase = .waitRelay ∧ (((s.job j).cohort
      k).relayAcked = true ∨ ((s.job j).cohort k).unmirrored = true) ∧ ((s.job j).cohort k).t0 + 50000 ≤ s.time.now) ∧
    (∃ (s : State) (j : Fin 96) (k : Fin 32), ((s.job j).cohort k).phase = .waitRelay ∧ ((s.job j).cohort k).relayAcked = false ∧ ((s.job
      j).cohort k).unmirrored = false ∧ ((s.job j).cohort k).t0 + 50000 ≤ s.time.now) ∧
    (∃ (s : State) (j : Fin 96) (k : Fin 32), (s.job j).state = .running ∧ (s.job j).own ≠ 0 ∧ s.commitReady j k = true ∧ s.lockLeft j k =
      none) ∧
    (∃ (s : State) (j : Fin 96) (k : Fin 32), (s.job j).state = .running ∧ (s.job j).own ≠ 0 ∧ s.commitReady j k = true ∧ s.lockLeft j k ≠
      none) ∧
    (∃ (s : State) (j : Fin 96), (s.job j).state = .running ∧ (s.job j).own = 0 ∧ s.idleJob j = true) ∧
    (∃ (s : State) (j : Fin 96) (k : Fin 32), ((s.job j).cohort k).recordsDue = true) ∧
    (∃ (s : State) (j : Fin 96) (k : Fin 32), (s.job j).state = .running ∧ ((s.job j).cohort k).phase = .computing ∧ ((s.job j).cohort
      k).rerun = true ∧ ((s.job j).cohort k).boundPassed = false ∧ (s.job j).image.downstream = [] ∧ ((s.job j).cohort k).t0 + (s.job
      j).image.boundUs * 1000 ≤ s.time.now) ∧
    (∃ (s : State) (j : Fin 96) (k : Fin 32) (at_ : Nat), ((s.job j).cohort k).recovery = some at_ ∧ at_ ≤ s.time.now ∧ ((s.job j).cohort
      k).phase = .idle ∧ s.pair.restoreAt = none ∧ (s.job j).state = .running) := by
  refine ⟨⟨{ busy (task .running) with time := { now := 10000000 } }, 0, 0, ?_⟩,
    ⟨{ busy (task .running { owed := [0] }) with streams := [(0, some { flow with queued := [{ chunk0 with inBerth := true }] })], time := { now := 10000000 } },
      0, 0, ?_⟩,
    ⟨{ busy (task .running { phase := .waitRelay, relayAcked := true }) with time := { now := 50000 } }, 0, 0, ?_⟩,
    ⟨{ busy (task .running { phase := .waitRelay }) with time := { now := 50000 } }, 0, 0, ?_⟩,
    ⟨busy (task .running { phase := .computing }), 0, 0, ?_⟩,
    ⟨{ busy (task .running { phase := .computing }) with cores := [(0, { locks := [(0, { valid := true, fill := 1 })] })] }, 0, 0, ?_⟩,
    ⟨busy { state := .running }, 0, ?_⟩,
    ⟨busy (task .running { recordsDue := true }), 0, 0, ?_⟩,
    ⟨busy (task .running { phase := .computing, rerun := true }), 0, 0, ?_⟩,
    ⟨busy (task .running { recovery := some 0 }), 0, 0, 0, ?_⟩⟩
  all_goals and_intros
  all_goals decide +kernel

set_option maxRecDepth 100000 in
/-- What `Obligations.CommitSettingsComplete` assumes can be met, clause by clause. -/
theorem test_hyps_CommitSettingsComplete :
    (∃ (s : State) (s1 : State) (via : Via) (c : Cmd) (v : Steer) (x : TensorSpec), Runs s via 0x0403 (fun _ => true) s1 c ∧ c.stray
      [0xE000FFFF, 0x1F071F00, 0x07FF1FFF] = none ∧ v =
      { enable := bitAt (c.p 0) 31, downEn := bitAt (c.p 0) 30, onDisable := bitAt (c.p 0) 29, targetLog2 := c.f 1 24 5, maxSteps := c.f 1 16 3, minSamplesLog2 := c.f 1 8 5, minStreams := c.f 2 16 11, windowChunks := c.f 2 0 13 }
      ∧ 8 ≤ v.targetLog2 ∧ v.targetLog2 ≤ 16 ∧ 1 ≤ v.maxSteps ∧ v.maxSteps ≤ 4 ∧ 20 ≤ v.minSamplesLog2 ∧ v.minSamplesLog2 ≤ 30 ∧ 64 ≤
      v.minStreams ∧ v.minStreams ≤ 1024 ∧ 16 ≤ v.windowChunks ∧ v.windowChunks ≤ 4096 ∧ (s1.job c.job).state = .running ∧ (s1.job
      c.job).image.tensors[c.f 0 0 16]? = some x ∧ x.tallies = true ∧ x.bashaba = false ∧ x.weight = false) ∧
    (∃ (s : State) (s1 : State) (via : Via) (c : Cmd), Runs s via 0x0702 (fun _ => true) s1 c ∧ c.p 0 ≤ 4 ∧ (∀ p < 12, ∀ j ∈ s1.live p, c.p
      0 ≤ (s1.job j).image.rateMax)) := by
  refine ⟨⟨given
      ({ work with jobs := [(0, { task .running with image := { plan with tensors := [{ (default : TensorSpec) with tallies := true }] } })] })
      (cmd 0x0403 [0, 0x08011400, 0x00400010] 0),
      { work with jobs := [(0, { task .running with image := { plan with tensors := [{ (default : TensorSpec) with tallies := true }] } })] },
      .ring 0, (cmd 0x0403 [0, 0x08011400, 0x00400010] 0),
      { targetLog2 := 8, maxSteps := 1, minSamplesLog2 := 20, minStreams := 64, windowChunks := 16 },
      { (default : TensorSpec) with tallies := true }, ?_⟩,
    ⟨given (work) (cmd 0x0702 [4]), work, .ring 0, (cmd 0x0702 [4]), ?_⟩⟩
  all_goals and_intros
  all_goals decide +kernel

set_option maxRecDepth 100000 in
/-- What `Obligations.ModelCommandsComplete` assumes can be met, clause by clause. -/
theorem test_hyps_ModelCommandsComplete :
    (∃ (s : State) (s1 : State) (via : Via) (c : Cmd) (n : Nat) (m : StoredModel), Runs s via 0x0401 (fun c => c.action == 0 || c.action ==
      3) s1 c ∧ c.action = 0 ∧ c.stray [0xC000FFFF, 0x01FFFFFF] = none ∧ s1.stored (c.f 0 0 16) = some (n, m) ∧ (s1.part
      c.partition).configured = true ∧ s1.rangeOwner c.partition (c.f 1 0 25) m.pkg.shard.length = none ∧ (s1.part c.partition).hbmGib ≠ 0 ∧
      s1.outsideArea c.partition (c.f 1 0 25) m.pkg.shard.length = false ∧ m.damaged = false ∧ m.pkg.signed = true ∧ s1.mgmt.selfRefresh =
      false) ∧
    (∃ (s : State) (s1 : State) (via : Via) (c : Cmd) (m : ModelPkg), Runs s via 0x0401 (fun c => c.action == 1) s1 c ∧ c.stray [0xC000FFFF,
      0x01FFFFFF] = none ∧ c.p 4 ≠ 0 ∧ s1.mgmt.selfRefresh = false ∧ 64 < s1.flash.reserve ∧ m.usable = true ∧ m.id = c.f 0 0 16 ∧ m.signed
      = true ∧ m.scalesLegal = true ∧ ((s1.flash.models.filter (fun x => x.pkg.id != c.f 0 0 16)).map (·.pkg.len4k)).sum + c.p 4 ≤
      storeUnits) ∧
    (∃ (s : State) (s1 : State) (via : Via) (c : Cmd) (n : Nat) (m : StoredModel), Runs s via 0x0401 (fun c => c.action == 2) s1 c ∧
      s1.stored (c.f 0 0 16) = some (n, m) ∧ c.stray [0xC000FFFF, 0x01FFFFFF] = none ∧ s1.mgmt.selfRefresh = false ∧ (∀ j, (s1.job j).state
      ≠ .free → (s1.job j).model ≠ c.f 0 0 16)) ∧
    (∃ (s : State) (s1 : State) (via : Via) (c : Cmd), Runs s via 0x0402 (fun c => c.action == 0) s1 c ∧ c.stray [0xC000FFFF, 0xFFF] = none
      ∧ s1.digested c.partition (c.f 0 0 16) ≠ [] ∧ c.f 1 0 12 = 0) ∧
    (∃ (s : State) (s1 : State) (via : Via) (c : Cmd), Runs s via 0x0402 (fun c => c.action == 0) s1 c ∧ c.stray [0xC000FFFF, 0xFFF] = none
      ∧ s1.digested c.partition (c.f 0 0 16) ≠ [] ∧ 10 ≤ c.f 1 0 12 ∧ c.f 1 0 12 ≤ 3600) ∧
    (∃ (s : State) (s1 : State) (via : Via) (c : Cmd), Runs s via 0x0402 (fun c => c.action == 1) s1 c ∧ c.stray [0xC000FFFF, 0xFFF] = none
      ∧ s1.digested c.partition (c.f 0 0 16) ≠ [] ∧ s1.mgmt.acts = []) ∧
    (∃ (s : State) (s1 : State) (via : Via) (c : Cmd), Runs s via 0x0402 (fun c => 2 ≤ c.action) s1 c ∧ c.action = 2 ∧ c.stray [0xC000FFFF,
      0xFFF] = none ∧ s1.digested c.partition (c.f 0 0 16) ≠ []) := by
  refine ⟨⟨given
      ({ work with flash := { models := [{ pkg := { (default : ModelPkg) with signed := true, wellFormed := true } }] }, parts := [(0, { configured := true, hbmGib := 1 })] })
      (cmd 0x0401 [0, 0] 0),
      { work with flash := { models := [{ pkg := { (default : ModelPkg) with signed := true, wellFormed := true } }] }, parts := [(0, { configured := true, hbmGib := 1 })] },
      .ring 0, (cmd 0x0401 [0, 0] 0), 0, { pkg := { (default : ModelPkg) with signed := true, wellFormed := true } }, ?_⟩,
    ⟨given (work) (cmd 0x0401 [0x40000000, 0, 0, 0, 1] 0), work, .ring 0, (cmd 0x0401 [0x40000000, 0, 0, 0, 1] 0),
      { (default : ModelPkg) with signed := true, wellFormed := true }, ?_⟩,
    ⟨given
      ({ work with flash := { models := [{ pkg := { (default : ModelPkg) with signed := true, wellFormed := true } }] }, parts := [(0, { configured := true, hbmGib := 1 })] })
      (cmd 0x0401 [0x80000000, 0] 0),
      { work with flash := { models := [{ pkg := { (default : ModelPkg) with signed := true, wellFormed := true } }] }, parts := [(0, { configured := true, hbmGib := 1 })] },
      .ring 0, (cmd 0x0401 [0x80000000, 0] 0), 0, { pkg := { (default : ModelPkg) with signed := true, wellFormed := true } }, ?_⟩,
    ⟨given ({ work with loaded := [{ part := 0, model := 0, first := 0 }] }) (cmd 0x0402 [0, 0] 0),
      { work with loaded := [{ part := 0, model := 0, first := 0 }] }, .ring 0, (cmd 0x0402 [0, 0] 0), ?_⟩,
    ⟨given ({ work with loaded := [{ part := 0, model := 0, first := 0 }] }) (cmd 0x0402 [0, 10] 0),
      { work with loaded := [{ part := 0, model := 0, first := 0 }] }, .ring 0, (cmd 0x0402 [0, 10] 0), ?_⟩,
    ⟨given ({ work with loaded := [{ part := 0, model := 0, first := 0 }] }) (cmd 0x0402 [0x40000000, 0] 0),
      { work with loaded := [{ part := 0, model := 0, first := 0 }] }, .ring 0, (cmd 0x0402 [0x40000000, 0] 0), ?_⟩,
    ⟨given ({ work with loaded := [{ part := 0, model := 0, first := 0 }] }) (cmd 0x0402 [0x80000000, 0] 0),
      { work with loaded := [{ part := 0, model := 0, first := 0 }] }, .ring 0, (cmd 0x0402 [0x80000000, 0] 0), ?_⟩⟩
  all_goals and_intros
  all_goals first | decide +kernel | (intros; contradiction)

set_option maxRecDepth 100000 in
/-- What `Obligations.HbmEventsComplete` assumes can be met, clause by clause. -/
theorem test_hyps_HbmEventsComplete :
    (∃ (s : State) (p : Fin 12) (m : Nat) (n : Nat) (l : Loaded) (g : ModelPkg), s.loaded.find? (fun x => x.part == p.val && x.model == m) =
      some l ∧ s.pkgOf m = some g ∧ n < g.segments ∧ l.sweeping = true ∧ l.swept.contains n = false ∧ s.rst.ready = true ∧ (s.act
      actSweep).phase = .running ∧ s.segmentRead l g n = true) ∧
    (∃ (s : State) (l : Fin 36), (s.link l).state = .up ∧ s.pair.state ≠ .unbound ∧ s.rst.ready = true) ∧
    (∃ (s : State), s.integ.chipSuspect = true ∧ s.integ.digestBad = [] ∧ s.integ.suspectSince + 3600000000000 ≤ s.time.up) ∧
    (∃ (s : State) (k : Fin 4), (s.stack k).trained = true ∧ s.mgmt.selfRefresh = false) ∧
    (∃ (s : State), s.rst.ready = true ∧ max s.rst.readyUp s.integ.intervalAt + 1000000000 ≤ s.time.up ∧ s.integ.granted < fullLoadBytes) ∧
    (∃ (s : State), s.rst.ready = true ∧ max s.rst.readyUp s.integ.intervalAt + 1000000000 ≤ s.time.up ∧ fullLoadBytes ≤ s.integ.granted ∧
      s.integ.fullLoad < 59) ∧
    (∃ (s : State), s.rst.ready = true ∧ max s.rst.readyUp s.integ.intervalAt + 1000000000 ≤ s.time.up ∧ fullLoadBytes ≤ s.integ.granted ∧
      59 ≤ s.integ.fullLoad) ∧
    (∃ (s : State) (at_ : Nat), s.mgmt.exitAt = some at_ ∧ at_ ≤ s.time.up) := by
  refine ⟨⟨{ work with flash := { models := [{ pkg := { (default : ModelPkg) with weights := [(0, 2 * segmentLen)] } }] }, loaded := [{ part := 0, model := 0, first := 0, sweeping := true }], mgmt := { acts := [(actSweep, { phase := .running })] } },
      0, 0, 0, { part := 0, model := 0, first := 0, sweeping := true }, { (default : ModelPkg) with weights := [(0, 2 * segmentLen)] }, ?_⟩,
    ⟨{ linked 0 with pair := { state := .bound } }, 0, ?_⟩,
    ⟨{ work with integ := { chipSuspect := true }, time := { up := 3600000000000 } }, ?_⟩,
    ⟨{ work with hbmStacks := [(0, { trained := true }), (1, { trained := true }), (2, { trained := true }), (3, { trained := true })] }, 0, ?_⟩,
    ⟨{ work with time := { up := 1000000000 } }, ?_⟩,
    ⟨{ work with time := { up := 1000000000 }, integ := { granted := fullLoadBytes, fullLoad := 58 } }, ?_⟩,
    ⟨{ work with time := { up := 1000000000 }, integ := { granted := fullLoadBytes, fullLoad := 59 } }, ?_⟩,
    ⟨{ work with mgmt := { exitAt := some 0 } }, 0, ?_⟩⟩
  all_goals and_intros
  all_goals decide +kernel

set_option maxRecDepth 100000 in
/-- What `Obligations.WharfCommandsComplete` assumes can be met, clause by clause. -/
theorem test_hyps_WharfCommandsComplete :
    (∃ (s : State) (s1 : State) (via : Via) (c : Cmd), Runs s via 0x0501 (fun _ => true) s1 c ∧ s1.wharfBad c = none ∧ (s1.wharf (c.f 0 0
      4)).state = .stopped) ∧
    (∃ (s : State) (s1 : State) (via : Via) (c : Cmd), Runs s via 0x0502 (fun _ => true) s1 c ∧ c.p 0 < 1024 ∧ c.p 0 ≠ 0 ∧ (∀ n ∈
      maskWharves (c.p 0), (s1.wharf n).state = .stopped ∧ bitAt (s1.wharf n).cfg.toNat 31 = true) ∧ (∀ n ∈ maskWharves (c.p 0), ∀ m ∈
      maskWharves (c.p 0), (s1.wharf n).refCur = (s1.wharf m).refCur)) ∧
    (∃ (s : State) (s1 : State) (via : Via) (c : Cmd) (n : Nat), Runs s via 0x0503 (fun _ => true) s1 c ∧ n < 10 ∧ (s1.wharf n).state =
      .armed) ∧
    (∃ (s : State) (s1 : State) (via : Via) (c : Cmd), Runs s via 0x0504 (fun _ => true) s1 c ∧ c.p 0 < 1024 ∧ c.p 0 ≠ 0 ∧ (∀ n ∈
      maskWharves (c.p 0), (s1.wharf n).state = .running ∧ s1.bindings n 1024 = [])) ∧
    (∃ (s : State) (s1 : State) (via : Via) (c : Cmd), Runs s via 0x0505 (fun _ => true) s1 c ∧ (∀ n < 10, (s1.wharf n).state = .stopped) ∧
      c.p 0 &&& 0xFFFFFECC = 0 ∧ bitAt (c.p 0) 8 = true ∧ c.p 1 = 0) ∧
    (∃ (s : State) (s1 : State) (via : Via) (c : Cmd), Runs s via 0x0505 (fun _ => true) s1 c ∧ (∀ n < 10, (s1.wharf n).state = .stopped) ∧
      c.p 0 = 0 ∧ c.p 1 < 0x20400 ∧ 0x20000 ≤ c.p 1) ∧
    (∃ (s : State) (s1 : State) (via : Via) (c : Cmd) (st : Stream), Runs s via 0x0305 (fun _ => true) s1 c ∧ s1.twinCarries (c.p 0) = false
      ∧ s1.knownPair (c.p 0) = true ∧ s1.openHandle (c.p 0) = some st ∧ st.adm.source ≠ .link ∧ c.p 1 = 0 ∧ c.p 2 = 0 ∧ (s1.wharf 0).state ≠
      .stopped) ∧
    (∃ (s : State) (s1 : State) (via : Via) (c : Cmd) (st : Stream), Runs s via 0x0305 (fun _ => true) s1 c ∧ s1.twinCarries (c.p 0) = false
      ∧ s1.knownPair (c.p 0) = true ∧ s1.openHandle (c.p 0) = some st ∧ st.adm.source ≠ .link ∧ c.p 1 < 10 * 2 ^ 24 ∧ c.p 1 % 2 ^ 24 = 0 ∧ 0
      < c.p 2 ∧ c.p 2 ≤ 32 ∧ (s1.wharf (c.p 1 / 2 ^ 24)).state ≠ .stopped ∧ c.p 2 ≤ maskChannels (s1.wharf (c.p 1 / 2 ^ 24)).txMask ∧
      s1.bindings (c.p 1 / 2 ^ 24) (handleIndex (c.p 0)) = [] ∧ (s1.wharf (c.p 1 / 2 ^ 24)).rate * (s1.job st.adm.job).image.shape.periodMs
      % 1000 = 0) := by
  refine ⟨⟨given (work) (cmd 0x0501 [0, 184549384, 64, 0, 0, 0]), work, .ring 0, (cmd 0x0501 [0, 184549384, 64, 0, 0, 0]), ?_⟩,
    ⟨given ({ work with wharves := [(0, { cfg := 0x80000008 })] }) (cmd 0x0502 [1]), { work with wharves := [(0, { cfg := 0x80000008 })] },
      .ring 0, (cmd 0x0502 [1]), ?_⟩,
    ⟨given ({ work with wharves := [(0, { state := .armed })] }) (cmd 0x0503 [1]), { work with wharves := [(0, { state := .armed })] }, .ring 0,
      (cmd 0x0503 [1]), 0, ?_⟩,
    ⟨given ({ work with wharves := [(0, { state := .running })] }) (cmd 0x0504 [1]), { work with wharves := [(0, { state := .running })] },
      .ring 0, (cmd 0x0504 [1]), ?_⟩,
    ⟨given (work) (cmd 0x0505 [0x100, 0]), work, .ring 0, (cmd 0x0505 [0x100, 0]), ?_⟩,
    ⟨given (work) (cmd 0x0505 [0, 0x20000]), work, .ring 0, (cmd 0x0505 [0, 0x20000]), ?_⟩,
    ⟨given ({ fed flow with wharves := [(0, { state := .armed })] }) (cmd 0x0305 [0, 0, 0] 0),
      { fed flow with wharves := [(0, { state := .armed })] }, .ring 0, (cmd 0x0305 [0, 0, 0] 0), flow, ?_⟩,
    ⟨given ({ fed flow with wharves := [(0, { state := .armed, txMask := 1 })] }) (cmd 0x0305 [0, 0, 1] 0),
      { fed flow with wharves := [(0, { state := .armed, txMask := 1 })] }, .ring 0, (cmd 0x0305 [0, 0, 1] 0), flow, ?_⟩⟩
  all_goals and_intros
  all_goals decide +kernel

set_option maxRecDepth 100000 in
/-- What `Obligations.WharfEventsComplete` assumes can be met, clause by clause. -/
theorem test_hyps_WharfEventsComplete :
    (∃ (s : State) (n : Fin 10), ((s.wharf n).state = .standby ∨ ((s.wharf n).state = .running ∧ (s.wharf n).openAt ≤ s.time.now))) ∧
    (∃ (s : State) (n : Fin 10) (j : Fin 96) (k : Fin 32) (b : SlipBuf), Table.look {} (s.wharf n).bufs (bufKey j k) = b ∧ b.periodNs ≠ 0 ∧
      b.b ≤ s.time.now) ∧
    (∃ (s : State) (n : Fin 10), (s.wharf n).state = .running ∧ (s.wharf n).openAt ≤ s.time.now ∧ (s.wharf n).stopping = true) ∧
    (∃ (s : State) (n : Fin 10), (s.wharf n).state = .running ∧ (s.wharf n).openAt ≤ s.time.now ∧ (s.wharf n).stopping = false ∧
      s.pair.standing ≠ none ∧ (s.wharf n).hiZ = false) ∧
    (∃ (s : State) (n : Fin 10), (s.wharf n).state = .running ∧ (s.wharf n).openAt ≤ s.time.now ∧ (s.wharf n).stopping = false ∧
      (s.pair.standing = none ∨ (s.wharf n).hiZ = true)) ∧
    (∃ (s : State) (n : Fin 10), (s.wharf n).state = .standby ∧ (s.wharf n).stopping = true) ∧
    (∃ (s : State) (n : Fin 10), (s.wharf n).state = .standby ∧ (s.wharf n).stopping = false) ∧
    (∃ (s : State) (n : Fin 10), (s.wharf n).drives = true ∧ (s.wharf n).role ≠ 2) ∧
    (∃ (s : State) (n : Fin 10), (s.wharf n).enabling = true ∧ (s.wharf n).state = .standby) ∧
    (∃ (s : State) (n : Fin 10) (h : Nat), (s.wharf n).swapAt = some h ∧ h ≤ s.time.now ∧ (s.wharf n).role = 1) ∧
    (∃ (s : State) (n : Fin 10) (h : Nat), (s.wharf n).swapAt = some h ∧ h ≤ s.time.now ∧ (s.wharf n).role = 2 ∧ (s.wharf n).state =
      .standby) := by
  refine ⟨⟨{ work with wharves := [(0, { state := .running })] }, 0, ?_⟩,
    ⟨{ work with wharves := [(0, { state := .running, bufs := [(0, { periodNs := 1, n := 2, frames := [[]] })] })] }, 0, 0, 0,
      { periodNs := 1, n := 2, frames := [[]] }, ?_⟩,
    ⟨{ work with wharves := [(0, { state := .running, stopping := true })] }, 0, ?_⟩,
    ⟨{ work with wharves := [(0, { state := .running, hiZ := false })], pair := { standing := some 1 } }, 0, ?_⟩,
    ⟨{ work with wharves := [(0, { state := .running, hiZ := true })], pair := { standing := some 1 } }, 0, ?_⟩,
    ⟨{ work with wharves := [(0, { state := .standby, enabling := true, stopping := true })] }, 0, ?_⟩,
    ⟨{ work with wharves := [(0, { state := .standby, enabling := true })] }, 0, ?_⟩,
    ⟨{ work with wharves := [(0, { state := .running, hiZ := false })] }, 0, ?_⟩,
    ⟨{ work with wharves := [(0, { state := .standby, enabling := true })] }, 0, ?_⟩,
    ⟨{ work with wharves := [(0, { cfg := 0x20000008, swapAt := some 0 })] }, 0, 0, ?_⟩,
    ⟨{ work with wharves := [(0, { cfg := 0x40000008, state := .standby, swapAt := some 0 })] }, 0, 0, ?_⟩⟩
  all_goals and_intros
  all_goals decide +kernel

set_option maxRecDepth 100000 in
/-- What `Obligations.PairCommandsComplete` assumes can be met, clause by clause. -/
theorem test_hyps_PairCommandsComplete :
    (∃ (s : State) (s1 : State) (via : Via) (c : Cmd), Runs s via 0x0601 (fun _ => true) s1 c ∧ c.p 0 < 2048 ∧ s1.bindable (c.p 0) false =
      true ∧ s1.bindReady (c.p 0) false = true ∧ s1.pair.state = .unbound) ∧
    (∃ (s : State) (s1 : State) (via : Via) (c : Cmd), Runs s via 0x0602 (fun _ => true) s1 c ∧ s1.pair.state = .bound ∧ s1.pair.twinState =
      .bound ∧ s1.mgmt.acts = [] ∧ s1.mgmt.selfRefresh = false) ∧
    (∃ (s : State) (s1 : State) (via : Via) (c : Cmd), Runs s via 0x0603 (fun c => !bitAt (c.p 0) 0) s1 c ∧ c.p 0 = 0 ∧ s1.pair.state =
      .mirrored ∧ s1.quiet < 100000 ∧ s1.pair.restoreAt = none ∧ s1.pair.standing = none ∧ s1.pair.handover = none ∧ s1.mgmt.acts = []) ∧
    (∃ (s : State) (s1 : State) (via : Via) (c : Cmd), Runs s via 0x0603 (fun c => bitAt (c.p 0) 0) s1 c ∧ c.p 0 = 1 ∧ s1.pair.state = .solo
      ∧ s1.pair.twinState = .yielded ∧ s1.quiet < 100000 ∧ s1.pair.restoreAt = none ∧ s1.pair.standing = none ∧ s1.pair.handover = none ∧
      s1.mgmt.acts = []) ∧
    (∃ (s : State) (s1 : State) (via : Via) (c : Cmd), Runs s via 0x0604 (fun _ => true) s1 c) ∧
    (∃ (s : State) (s1 : State) (via : Via) (c : Cmd), Runs s via 0x0605 (fun _ => true) s1 c ∧ (s1.pair.state = .bound ∨ s1.pair.state =
      .unmirrored ∨ s1.pair.state = .yielded)) := by
  refine ⟨⟨given
      ({ work with time := { chipValid := true }, links := [(32, { state := .up, peerChip := 1 }), (33, { state := .up, peerChip := 1 }), (34, { state := .up, peerChip := 1 })], pair := { hbInAt := some 0 } })
      (cmd 0x0601 [1]),
      { work with time := { chipValid := true }, links := [(32, { state := .up, peerChip := 1 }), (33, { state := .up, peerChip := 1 }), (34, { state := .up, peerChip := 1 })], pair := { hbInAt := some 0 } },
      .ring 0, (cmd 0x0601 [1]), ?_⟩,
    ⟨given ({ work with pair := { state := .bound, twinState := .bound } }) (cmd 0x0602 []),
      { work with pair := { state := .bound, twinState := .bound } }, .ring 0, (cmd 0x0602 []), ?_⟩,
    ⟨given ({ work with pair := { state := .mirrored } }) (cmd 0x0603 [0]), { work with pair := { state := .mirrored } }, .ring 0, (cmd 0x0603
      [0]), ?_⟩,
    ⟨given ({ work with pair := { state := .solo, twinState := .yielded } }) (cmd 0x0603 [1]),
      { work with pair := { state := .solo, twinState := .yielded } }, .ring 0, (cmd 0x0603 [1]), ?_⟩,
    ⟨given (work) (cmd 0x0604 []), work, .ring 0, (cmd 0x0604 []), ?_⟩,
    ⟨given ({ work with pair := { state := .bound } }) (cmd 0x0605 []), { work with pair := { state := .bound } }, .ring 0, (cmd 0x0605 []), ?_⟩⟩
  all_goals and_intros
  all_goals decide +kernel

set_option maxRecDepth 100000 in
/-- What `Obligations.HeartbeatsAndWitness` assumes can be met, clause by clause. -/
theorem test_hyps_HeartbeatsAndWitness :
    (∃ (s : State) (l : Fin 36), s.hears l = true ∧ 32 ≤ l.val ∧ s.pair.state ≠ .unbound ∧ s.pair.state ≠ .fenced ∧ s.pair.spare = false) ∧
    (∃ (s : State), s.beats = true ∧ s.pair.spare = false) ∧
    (∃ (s : State), s.beats = true ∧ s.pair.spare = true) ∧
    (∃ (s : State), s.rst.ready = true) ∧
    (∃ (s : State), s.watches = true ∧ s.pair.isolated = false ∧ s.pair.pinged = false ∧ s.pair.spare = false ∧ 100000 ≤ s.quiet) ∧
    (∃ (s : State) (l : Fin 36) (target : Nat), s.hears l = true ∧ target ≠ s.time.chip) ∧
    (∃ (s : State) (l : Fin 36) (epoch : Nat) (sender : Nat) (target : Nat), s.hears l = true ∧ target = s.time.chip ∧ (s.pair.spare = false
      ∨ sender ≠ s.pair.twinChip) ∧ s.pair.isolated = false ∧ s.pair.state ≠ .fenced ∧ s.epochOk epoch = true) ∧
    (∃ (s : State) (l : Fin 36) (epoch : Nat) (sender : Nat) (target : Nat), s.hears l = true ∧ target = s.time.chip ∧ (s.pair.spare = false
      ∨ sender ≠ s.pair.twinChip) ∧ s.pair.isolated = false ∧ s.pair.state ≠ .fenced ∧ s.epochOk epoch = false) ∧
    (∃ (s : State) (l : Fin 36) (target : Nat), s.hears l = true ∧ target ≠ s.time.chip) ∧
    (∃ (s : State) (l : Fin 36) (route : Nat) (seq : Nat) (target : Nat) (at_ : Nat), s.hears l = true ∧ target = s.time.chip ∧ s.pair.spare
      = false ∧ (route, seq, at_) ∈ s.pair.pings ∧ s.time.now ≤ at_ + 40000) ∧
    (∃ (s : State) (r : Fin 2) (p : Nat × Nat × Nat), p ∈ s.pair.pings ∧ p.1 = r.val ∧ p.2.2 + 40000 < s.time.now) := by
  refine ⟨⟨{ linked 32 with pair := { state := .mirrored, twinChip := 1, twinEpoch := some 3 } }, 32, ?_⟩,
    ⟨work, ?_⟩,
    ⟨{ work with pair := { spare := true } }, ?_⟩,
    ⟨work, ?_⟩,
    ⟨{ work with pair := { state := .bound }, time := { up := 100000 } }, ?_⟩,
    ⟨linked 0, 0, 1, ?_⟩,
    ⟨{ linked 32 with pair := { state := .mirrored, twinChip := 1, twinEpoch := some 3 } }, 32, 3, 1, 0, ?_⟩,
    ⟨{ linked 32 with pair := { state := .mirrored, twinChip := 1, twinEpoch := some 3 } }, 32, 4, 1, 0, ?_⟩,
    ⟨linked 0, 0, 1, ?_⟩,
    ⟨{ linked 0 with pair := { state := .mirrored, pings := [(5, 6, 100)] }, time := { now := 40100 } }, 0, 5, 6, 0, 100, ?_⟩,
    ⟨{ work with pair := { pings := [(0, 0, 0)] }, time := { now := 40001 } }, 0, (0, 0, 0), ?_⟩⟩
  all_goals and_intros
  all_goals decide +kernel

set_option maxRecDepth 100000 in
/-- What `Obligations.PairDecisionsComplete` assumes can be met, clause by clause. -/
theorem test_hyps_PairDecisionsComplete :
    (∃ (s : State), s.watches = true ∧ s.pair.isolated = true) ∧
    (∃ (s : State) (b : Bool), s.watches = true ∧ b = true ∧ (∀ l ∈ twinLinks, (s.link l).state ≠ .up) ∧ s.wireAlive = false) ∧
    (∃ (s : State) (b : Bool), s.watches = true ∧ s.pair.isolated = false ∧ (b = true → ∃ l ∈ twinLinks, (s.link l).state = .up) ∧
      s.twinLinksAlive = true ∧ s.wireAlive = true) ∧
    (∃ (s : State) (b : Bool), s.watches = true ∧ s.pair.isolated = false ∧ (b = true → ∃ l ∈ twinLinks, (s.link l).state = .up) ∧
      s.twinLinksAlive = true ∧ s.wireAlive = false ∧ s.pair.decided ≠ 3) ∧
    (∃ (s : State) (b : Bool), s.watches = true ∧ s.pair.isolated = false ∧ (b = true → ∃ l ∈ twinLinks, (s.link l).state = .up) ∧
      s.twinLinksAlive = false ∧ (s.wireAlive = true ∨ s.pair.echoed = true ∨ s.sharedClocks = true) ∧ s.pair.state = .mirrored ∧
      s.pair.decided < 3) ∧
    (∃ (s : State) (b : Bool), s.watches = true ∧ s.pair.isolated = false ∧ (b = true → ∃ l ∈ twinLinks, (s.link l).state = .up) ∧
      s.twinLinksAlive = false ∧ s.wireAlive = false ∧ s.pair.echoed = false ∧ s.sharedClocks = false ∧ 200000 ≤ s.quiet ∧
      s.pair.state.takes = true) ∧
    (∃ (s : State), s.pair.restoreAt ≠ none ∧ s.restoreRead = true) ∧
    (∃ (s : State) (c : SelfCheck), s.rst.ready = true ∧ s.rst.quiesce = none ∧ (c = .pad → s.pair.pad.contains false = true)) ∧
    (∃ (s : State) (h : Handover), s.pair.handover = some h ∧ h.at_ ≤ s.time.now ∧ s.watches = true ∧ s.pair.state ≠ .yielded ∧ (∀ e ∈
      h.moving, s.mayMove e = true)) ∧
    (∃ (s : State) (h : Handover), s.pair.handover = some h ∧ h.at_ ≤ s.time.now ∧ s.watches = true ∧ s.pair.state ≠ .yielded ∧
      h.moving.filter (fun e => !s.mayMove e) ≠ []) ∧
    (∃ (s : State) (h : Handover), s.pair.handover = some h ∧ h.at_ ≤ s.time.now ∧ s.watches = true ∧ s.pair.state = .yielded ∧
      s.mayTakeBack = true) ∧
    (∃ (s : State) (at_ : Nat), s.pair.state = .unmirrored ∧ s.noteLinks.pair.linksUpSince = some at_ ∧ at_ + 1000000000 ≤ s.time.up ∧
      ((s.act actRemirror).phase = .granted ∨ (s.act actRemirror).phase = .running)) := by
  refine ⟨⟨{ work with pair := { state := .bound, isolated := true } }, ?_⟩,
    ⟨{ work with pair := { state := .mirrored }, time := { up := 200000 } }, true, ?_⟩,
    ⟨{ work with pair := { state := .mirrored, hbInAt := some 1 }, time := { up := 200000 }, links := [(32, { state := .up, heartbeat := some 1 })] },
      true, ?_⟩,
    ⟨{ work with pair := { state := .mirrored }, time := { up := 200000 }, links := [(32, { state := .up, heartbeat := some 1 })] }, true, ?_⟩,
    ⟨{ work with pair := { state := .mirrored, echoed := true }, time := { up := 200000 }, links := [(32, { state := .up })] }, true, ?_⟩,
    ⟨{ work with pair := { state := .mirrored }, time := { up := 200000 }, links := [(35, { state := .up })] }, true, ?_⟩,
    ⟨{ work with pair := { restoreAt := some 0 } }, ?_⟩,
    ⟨work, .watchdog, ?_⟩,
    ⟨{ work with pair := { state := .mirrored, handover := some { give := true, at_ := 0, moving := [(0, 0)] } }, jobs := [(0, task .running)] },
      { give := true, at_ := 0, moving := [(0, 0)] }, ?_⟩,
    ⟨{ work with pair := { state := .mirrored, handover := some { give := true, at_ := 0, moving := [(0, 0)] } }, jobs := [(0, task .running { phase := .computing })] },
      { give := true, at_ := 0, moving := [(0, 0)] }, ?_⟩,
    ⟨{ work with pair := { state := .yielded, twinState := .solo, handover := some { give := false, at_ := 0, moving := [] } } },
      { give := false, at_ := 0, moving := [] }, ?_⟩,
    ⟨{ work with pair := { state := .unmirrored, linksUpSince := some 0 }, links := [(32, { state := .up, heartbeat := some 1000000000 }), (33, { state := .up, heartbeat := some 1000000000 }), (34, { state := .up, heartbeat := some 1000000000 })], time := { up := 1000000000 }, mgmt := { acts := [(actRemirror, { phase := .granted })] } },
      0, ?_⟩⟩
  all_goals and_intros
  all_goals decide +kernel

set_option maxRecDepth 100000 in
/-- What `Obligations.TransfersArrive` assumes can be met, clause by clause. -/
theorem test_hyps_TransfersArrive :
    (∃ (s : State) (l : Fin 36) (r : Run) (core : Nat) (p : Plane), s.hears l = true ∧ r.dest = .plane core p ∧ r.destChip ≠ s.time.chip) ∧
    (∃ (s : State) (l : Fin 36) (r : Run) (core : Nat) (p : Plane), s.hears l = true ∧ r.dest = .plane core p ∧ r.destChip = s.time.chip ∧
      s.runFault r = none) ∧
    (∃ (s : State) (l : Fin 36) (r : Run) (core : Nat) (p : Plane), s.hears l = true ∧ r.dest = .plane core p ∧ r.destChip = s.time.chip ∧
      s.runFault r ≠ none) ∧
    (∃ (s : State) (l : Fin 36) (vc : Fin 4) (u : Transfer), s.hears l = true ∧ (s.link l).run vc = some u ∧ u.bad = false ∧ s.transits
      u.run = true) ∧
    (∃ (s : State) (l : Fin 36) (vc : Fin 4) (bs : List Byte) (g : Tag) (u : Transfer), s.hears l = true ∧ (s.link l).run vc = some u ∧
      u.bad = false ∧ s.transits u.run = false ∧ crc32c bs = g.crc ∧ u.got.length < u.run.barges) ∧
    (∃ (s : State) (l : Fin 36) (vc : Fin 4) (bs : List Byte) (g : Tag) (u : Transfer), s.hears l = true ∧ (s.link l).run vc = some u ∧
      u.bad = false ∧ s.transits u.run = false ∧ crc32c bs ≠ g.crc) ∧
    (∃ (s : State) (l : Fin 36) (vc : Nat) (x : Nat) (u : Transfer) (core : Nat) (p : Plane), s.hears l = true ∧ (s.link l).transfers.find?
      (fun t => t.run.xfer == x && t.run.vc == vc && t.parts == 0) = some u ∧ u.run.dest = .plane core p ∧ u.run.destChip = s.time.chip ∧
      u.bad = false ∧ u.run.barges ≤ u.got.length) ∧
    (∃ (s : State) (l : Fin 36) (e : Nat) (cohort : Nat), s.hears l = true ∧ s.epochOk e = true ∧ (s.link l).current = [] ∧ (s.link l).open_
      = [] ∧ cohort ≠ 0x3F) := by
  refine ⟨⟨linked 0, 0, { dataRun 1 with destChip := 1 }, 0, default, ?_⟩,
    ⟨{ linked 0 with cores := [(0, { spad := { pounds := [(0, { valid := true, remoteW := true, bound := 1 })] } })] }, 0, dataRun 1, 0,
      default, ?_⟩,
    ⟨{ linked 0 with cores := [(0, { spad := { pounds := [(0, { valid := true, remoteW := false, bound := 1 })] } })] }, 0, dataRun 1, 0,
      default, ?_⟩,
    ⟨linked 0 { current := [(0, some { run := { dataRun 1 with destChip := 1 } })] }, 0, 0, { run := { dataRun 1 with destChip := 1 } }, ?_⟩,
    ⟨linked 0 { current := [(0, some { run := dataRun 1 })] }, 0, 0, [7], { crc := crc32c [7] }, { run := dataRun 1 }, ?_⟩,
    ⟨linked 0 { current := [(0, some { run := dataRun 1 })] }, 0, 0, [7], { crc := crc32c [7] + 1 }, { run := dataRun 1 }, ?_⟩,
    ⟨linked 0 { open_ := [{ run := dataRun 0 }] }, 0, 0, 5, { run := dataRun 0 }, 0, default, ?_⟩,
    ⟨{ linked 0 with pair := { state := .mirrored, twinEpoch := some 0 } }, 0, 0, 0, ?_⟩⟩
  all_goals and_intros
  all_goals decide +kernel

set_option maxRecDepth 100000 in
/-- What `Obligations.LinkControlCompletes` assumes can be met, clause by clause. -/
theorem test_hyps_LinkControlCompletes :
    (∃ (s : State) (l : Fin 36) (dest : Nat), s.hears l = true ∧ dest ≠ s.time.chip) ∧
    (∃ (s : State) (l : Fin 36) (dest : Nat) (g : Signal), s.hears l = true ∧ dest = s.time.chip ∧ g.core < 24 ∧ ((s.core g.core).lock
      g.lock).takesRemote = true ∧ (((s.core g.core).lock g.lock).add ((if g.kind = 1 then g.amount else 0) + (((s.core
      g.core).overflows.filter (fun o => o.lock == g.lock)).map (·.fill)).sum) ((if g.kind = 2 then g.amount else 0) + (((s.core
      g.core).overflows.filter (fun o => o.lock == g.lock)).map (·.drain)).sum)).inRange = true) ∧
    (∃ (s : State) (l : Fin 36) (dest : Nat) (g : Signal), s.hears l = true ∧ dest = s.time.chip ∧ g.core < 24 ∧ ((s.core g.core).lock
      g.lock).takesRemote = true ∧ (((s.core g.core).lock g.lock).add ((if g.kind = 1 then g.amount else 0) + (((s.core
      g.core).overflows.filter (fun o => o.lock == g.lock)).map (·.fill)).sum) ((if g.kind = 2 then g.amount else 0) + (((s.core
      g.core).overflows.filter (fun o => o.lock == g.lock)).map (·.drain)).sum)).inRange = false) ∧
    (∃ (s : State) (l : Fin 36) (dest : Nat) (g : Signal), s.hears l = true ∧ dest = s.time.chip ∧ g.core < 24 ∧ ((s.core g.core).lock
      g.lock).takesRemote = false) ∧
    (∃ (s : State) (l : Fin 36), s.hears l = true ∧ (s.link l).egress = [] ∧ (∀ n < 24, ∀ x ∈ (s.core n).linkSends, x.link ≠ l.val)) ∧
    (∃ (s : State) (l : Fin 36) (x : Nat) (bs : List Byte) (g : Tag), s.hears l = true ∧ l.val < 32 ∧ s.maySend 0 = true ∧ (s.link l).egress
      = [.barge 0 x bs g] ∧ (s.link l).credits 0 = 0 ∧ (s.link l).txRun = some (0, x)) ∧
    (∃ (s : State) (l : Fin 36), s.hears l = true ∧ 0 < Table.look 0 (s.link l).freed 0 + Table.look 0 (s.link l).freed 1 + Table.look 0
      (s.link l).freed 2 + Table.look 0 (s.link l).freed 3 ∧ ((∃ at_, (s.link l).freedAt = some at_ ∧ at_ + 200 ≤ s.time.up) ∨ 8 ≤
      Table.look 0 (s.link l).freed 0 + Table.look 0 (s.link l).freed 1 + Table.look 0 (s.link l).freed 2 + Table.look 0 (s.link l).freed
      3)) ∧
    (∃ (s : State) (l : Fin 36), (s.link l).state = .up) ∧
    (∃ (s : State) (l : Fin 36) (d : Nat), (s.link l).state = .up ∧ d + 300 ≤ s.time.up) ∧
    (∃ (s : State) (l : Fin 36) (q : Nat), (s.link l).state = .up ∧ Table.look 0 (s.link l).fails q = 0) ∧
    (∃ (s : State) (l : Fin 36) (q : Nat), (s.link l).state = .up ∧ Table.look 0 (s.link l).fails q = 1) ∧
    (∃ (s : State) (l : Fin 36) (q : Nat), (s.link l).state = .up ∧ 2 ≤ Table.look 0 (s.link l).fails q) ∧
    (∃ (s : State) (l : Fin 36), (s.link l).state = .up ∧ l.val < 32) ∧
    (∃ (s : State) (l : Fin 36), (s.link l).state = .up ∧ 32 ≤ l.val) := by
  refine ⟨⟨linked 0, 0, 1, ?_⟩,
    ⟨{ linked 0 with cores := [(0, { locks := [(0, { valid := true, remote := true, depth := 4 })] })] }, 0, 0,
      { core := 0, lock := 0, kind := 1, amount := 1 }, ?_⟩,
    ⟨{ linked 0 with cores := [(0, { locks := [(0, { valid := true, remote := true, depth := 4 })] })] }, 0, 0,
      { core := 0, lock := 0, kind := 1, amount := 5 }, ?_⟩,
    ⟨{ linked 0 with cores := [(0, { locks := [(0, { valid := true, remote := false, depth := 4 })] })] }, 0, 0,
      { core := 0, lock := 0, kind := 1, amount := 1 }, ?_⟩,
    ⟨linked 0, 0, ?_⟩,
    ⟨linked 0 { egress := [.barge 0 5 [7] {}], txRun := some (0, 5), cred := [] }, 0, 5, [7], {}, ?_⟩,
    ⟨linked 0 { freed := [(0, 8)] }, 0, ?_⟩,
    ⟨linked 0, 0, ?_⟩,
    ⟨{ linked 0 with time := { up := 300 } }, 0, 0, ?_⟩,
    ⟨linked 0, 0, 0, ?_⟩,
    ⟨linked 0 { fails := [(7, 1)] }, 0, 7, ?_⟩,
    ⟨linked 0 { fails := [(7, 2)] }, 0, 7, ?_⟩,
    ⟨linked 31, 31, ?_⟩,
    ⟨linked 32, 32, ?_⟩⟩
  all_goals and_intros
  all_goals decide +kernel

set_option maxRecDepth 100000 in
/-- What `Obligations.ChunkMessagesComplete` assumes can be met, clause by clause. -/
theorem test_hyps_ChunkMessagesComplete :
    (∃ (s : State) (l : Fin 36) (dest : Nat), s.hears l = true ∧ dest ≠ s.time.chip) ∧
    (∃ (s : State) (l : Fin 36), s.hears l = true) ∧
    (∃ (s : State) (l : Fin 36) (a : Nat) (b : Nat), s.hears l = true ∧ a ≠ b) ∧
    (∃ (s : State) (l : Fin 36) (a : Nat) (b : Nat), s.hears l = true ∧ a = b) ∧
    (∃ (s : State) (l : Fin 36) (e : Nat), s.hears l = true ∧ s.epochOk e = false) ∧
    (∃ (s : State) (l : Fin 36) (e : Nat) (j : Nat) (k : Nat) (n : Nat), s.hears l = true ∧ s.epochOk e = true ∧ (j, k) ∈ s.runningCohorts ∧
      ((j, k).2 = k ∧ ((s.job (j, k).1).cohort (j, k).2).phase = .waitRelay ∧ ((s.job (j, k).1).cohort (j, k).2).relayAcked = false ∧
      ((s.job (j, k).1).cohort (j, k).2).seq = n) ∧ (∀ x ∈ s.runningCohorts, x ≠ (j, k) → (x.2 = k ∧ ((s.job x.1).cohort x.2).phase =
      .waitRelay ∧ ((s.job x.1).cohort x.2).relayAcked = false ∧ ((s.job x.1).cohort x.2).seq = n) → ((s.job j).cohort k).bk < ((s.job
      x.1).cohort x.2).bk)) ∧
    (∃ (s : State) (l : Fin 36) (e : Nat) (j : Nat) (k : Nat) (n : Nat), s.hears l = true ∧ s.epochOk e = true ∧ (j, k) ∈ s.runningCohorts ∧
      (∀ x ∈ s.runningCohorts, ¬ (x.2 = k ∧ ((s.job x.1).cohort x.2).phase = .waitRelay ∧ ((s.job x.1).cohort x.2).relayAcked = false ∧
      ((s.job x.1).cohort x.2).seq = n)) ∧ ((s.job j).cohort k).relayLast = true ∧ ((s.job j).cohort k).upcoming = n ∧ (∀ x ∈
      s.runningCohorts, x ≠ (j, k) → x.2 = k → ((s.job x.1).cohort x.2).relayLast = false)) ∧
    (∃ (s : State) (l : Fin 36) (e : Nat) (k : Nat) (n : Nat) (m : MirrorSent) (rest : List MirrorSent), s.hears l = true ∧ s.epochOk e =
      true ∧ k ≠ 0x3F ∧ s.pair.ackOf k n = some (m, rest)) ∧
    (∃ (s : State) (l : Fin 36) (e : Nat) (k : Nat), s.hears l = true ∧ s.epochOk e = true ∧ k = 0x3F ∧ s.pair.state = .syncing ∧
      s.pair.twinSynced = true ∧ s.pair.twinState ≠ .solo ∧ s.rst.deferred = none) ∧
    (∃ (s : State) (l : Fin 36) (e : Nat) (k : Nat), s.hears l = true ∧ s.epochOk e = true ∧ k = 0x3F ∧ (s.pair.state ≠ .syncing ∨
      s.pair.twinSynced = false)) ∧
    (∃ (s : State) (l : Fin 36) (e : Nat), s.hears l = true ∧ s.epochOk e = true ∧ (s.pair.state = .mirrored ∨ s.pair.state = .unmirrored ∨
      s.pair.state = .syncing)) ∧
    (∃ (s : State) (l : Fin 36), s.hears l = true) ∧
    (∃ (s : State) (l : Fin 36), s.hears l = true) ∧
    (∃ (s : State) (l : Fin 36) (x : Nat), s.hears l = true ∧ x % 128 < 96 ∧ (s.job (x % 128)).state ≠ .free) := by
  refine ⟨⟨linked 0, 0, 1, ?_⟩,
    ⟨linked 0, 0, ?_⟩,
    ⟨linked 0, 0, 1, 2, ?_⟩,
    ⟨linked 0, 0, 1, 1, ?_⟩,
    ⟨{ linked 0 with jobs := [(0, task .running {  })], pair := { state := .mirrored, twinEpoch := some 0 } }, 0, 1, ?_⟩,
    ⟨{ linked 0 with jobs := [(0, task .running { phase := .waitRelay })], pair := { state := .mirrored, twinEpoch := some 0 } }, 0, 0, 0, 0, 0,
      ?_⟩,
    ⟨{ linked 0 with jobs := [(0, task .running { relayLast := true })], pair := { state := .mirrored, twinEpoch := some 0 } }, 0, 0, 0, 0, 0,
      ?_⟩,
    ⟨{ linked 0 with jobs := [(0, task .running {  })], pair := { state := .mirrored, twinEpoch := some 0, sent := [{ job := 0, cohort := 0, chunk := 0, due := none, slots := [] }] } },
      0, 0, 0, 0, { job := 0, cohort := 0, chunk := 0, due := none, slots := [] }, [], ?_⟩,
    ⟨{ linked 0 with jobs := [(0, task .running {  })], pair := { state := .syncing, twinEpoch := some 0, twinSynced := true, twinState := .syncing } },
      0, 0, 0x3F, ?_⟩,
    ⟨{ linked 0 with jobs := [(0, task .running {  })], pair := { state := .syncing, twinEpoch := some 0 } }, 0, 0, 0x3F, ?_⟩,
    ⟨{ linked 0 with jobs := [(0, task .running {  })], pair := { state := .mirrored, twinEpoch := some 0 } }, 0, 0, ?_⟩,
    ⟨linked 0, 0, ?_⟩,
    ⟨linked 0, 0, ?_⟩,
    ⟨{ linked 0 with jobs := [(5, task .running)] }, 0, 5, ?_⟩⟩
  all_goals and_intros
  all_goals decide +kernel

set_option maxRecDepth 100000 in
/-- What `Obligations.LinkTrainingCompletes` assumes can be met, clause by clause. -/
theorem test_hyps_LinkTrainingCompletes :
    (∃ (s : State) (l : Fin 36) (f : TrainFinding), (s.link l).state = .training ∧ s.rst.ready = true ∧ s.time.up ≤ (s.link l).trainAt +
      80000000 ∧ (s.link l).step < 3 ∧ f.lanes % 16 = 15) ∧
    (∃ (s : State) (l : Fin 36) (f : TrainFinding), (s.link l).state = .training ∧ s.rst.ready = true ∧ s.time.up ≤ (s.link l).trainAt +
      80000000 ∧ (s.link l).step ≤ 3 ∧ f.lanes % 16 ≠ 15) ∧
    (∃ (s : State) (l : Fin 36) (f : TrainFinding), (s.link l).state = .training ∧ s.rst.ready = true ∧ s.time.up ≤ (s.link l).trainAt +
      80000000 ∧ (s.link l).step = 3 ∧ f.lanes % 16 = 15) ∧
    (∃ (s : State) (l : Fin 36) (f : TrainFinding), (s.link l).state = .training ∧ s.rst.ready = true ∧ s.time.up ≤ (s.link l).trainAt +
      80000000 ∧ (s.link l).step = 4 ∧ s.helloOk l f = true ∧ f.peerOk = true) ∧
    (∃ (s : State) (l : Fin 36) (f : TrainFinding), (s.link l).state = .training ∧ s.rst.ready = true ∧ s.time.up ≤ (s.link l).trainAt +
      80000000 ∧ (s.link l).step = 4 ∧ (s.helloOk l f = false ∨ f.peerOk = false)) ∧
    (∃ (s : State) (l : Fin 36), (s.link l).state = .training ∧ s.rst.ready = true ∧ s.time.up ≤ (s.link l).trainAt + 80000000 ∧ (s.link
      l).step = 5) ∧
    (∃ (s : State) (l : Fin 36), (s.link l).state = .training ∧ s.rst.ready = true ∧ s.time.up ≤ (s.link l).trainAt + 80000000 ∧ 6 ≤ (s.link
      l).step) ∧
    (∃ (s : State) (l : Fin 36), (s.link l).state = .training ∧ (s.link l).trainAt + 80000000 ≤ s.time.up ∧ (s.link l).tries < 2) ∧
    (∃ (s : State) (l : Fin 36), (s.link l).state = .training ∧ (s.link l).trainAt + 80000000 ≤ s.time.up ∧ 2 ≤ (s.link l).tries) ∧
    (∃ (s : State) (s1 : State) (via : Via) (c : Cmd) (n : Nat), Runs s via 0x0611 (fun c => c.action == 0 || c.action == 3) s1 c ∧ n < 32 ∧
      c.p 0 = s1.time.chip ∧ c.p 0 < 2048 ∧ c.p 1 = 2 ^ n ∧ c.p 2 = 0 ∧ c.p 3 = 0 ∧ c.p 4 = 0 ∧ c.p 5 = 0 ∧ s1.mgmt.acts = [] ∧ (s1.link
      n).state = .down) ∧
    (∃ (s : State) (s1 : State) (via : Via) (c : Cmd) (n : Nat), Runs s via 0x0611 (fun c => c.action == 1) s1 c ∧ n < 32 ∧ c.p 0 =
      0x40000000 + s1.time.chip ∧ s1.time.chip < 2048 ∧ c.p 1 = 2 ^ n ∧ c.p 2 = 0 ∧ c.p 3 = 0 ∧ c.p 4 = 0 ∧ c.p 5 = 0 ∧ (s1.link n).state =
      .up ∧ s1.linkInUse n = false) ∧
    (∃ (s : State) (s1 : State) (via : Via) (c : Cmd) (n : Nat), Runs s via 0x0611 (fun c => c.action == 2) s1 c ∧ n < 32 ∧ c.p 0 =
      0x80000000 + s1.time.chip ∧ s1.time.chip < 2048 ∧ c.p 1 = 2 ^ n ∧ c.p 2 = 0 ∧ c.p 3 = 0 ∧ c.p 4 = 0 ∧ c.p 5 = 0 ∧ s1.mgmt.acts = [] ∧
      (s1.link n).state = .markedOut) ∧
    (∃ (s : State) (s1 : State) (via : Via) (c : Cmd), Runs s via 0x0612 (fun _ => true) s1 c ∧ c.p 0 < 36) ∧
    (∃ (s : State) (r : RouteImage) (v : Nat × List (Nat × List Nat)), s.route = some r ∧ r.variants.find? (fun x => x.1 == v.1) = some v) ∧
    (∃ (s : State) (r : RouteImage) (v : Nat × List (Nat × List Nat)), s.route = some r ∧ r.variants.find? (fun x => x.1 == v.1) = some v ∧
      (∃ l < 32, (s.link l).state = .markedOut ∧ s.flowsOn l ≠ []) ∧ s.aloneWithStreams = true) ∧
    (∃ (s : State) (r : RouteImage) (v : Nat × List (Nat × List Nat)), s.route = some r ∧ r.variants.find? (fun x => x.1 == v.1) = some v ∧
      (∃ l < 32, (s.link l).state = .markedOut ∧ s.flowsOn l ≠ []) ∧ s.aloneWithStreams = false) := by
  refine ⟨⟨{ work with links := [(0, { state := .training, step := 2 })] }, 0,
      { lanes := 15, peerChip := 1, peerPort := 2, peerDigest := 7, peerOk := true, delay := 0 }, ?_⟩,
    ⟨{ work with links := [(0, { state := .training, step := 3 })] }, 0,
      { lanes := 14, peerChip := 1, peerPort := 2, peerDigest := 7, peerOk := true, delay := 0 }, ?_⟩,
    ⟨{ work with links := [(0, { state := .training, step := 3 })] }, 0,
      { lanes := 15, peerChip := 1, peerPort := 2, peerDigest := 7, peerOk := true, delay := 0 }, ?_⟩,
    ⟨{ work with links := [(0, { state := .training, step := 4 })], route := some { (default : RouteImage) with digest := 7, expect := [(0, 1, 2)] } },
      0, { lanes := 15, peerChip := 1, peerPort := 2, peerDigest := 7, peerOk := true, delay := 0 }, ?_⟩,
    ⟨{ work with links := [(0, { state := .training, step := 4 })] }, 0,
      { lanes := 15, peerChip := 1, peerPort := 2, peerDigest := 7, peerOk := true, delay := 0 }, ?_⟩,
    ⟨{ work with links := [(0, { state := .training, step := 5 })] }, 0, ?_⟩,
    ⟨{ work with links := [(0, { state := .training, step := 6 })] }, 0, ?_⟩,
    ⟨{ { work with links := [(0, { state := .training, tries := 1 })] } with time := { up := 80000000 } }, 0, ?_⟩,
    ⟨{ { work with links := [(0, { state := .training, tries := 2 })] } with time := { up := 80000000 } }, 0, ?_⟩,
    ⟨given ({ work with links := [(0, { state := .down })] }) (cmd 0x0611 [0, 1, 0, 0, 0, 0]), { work with links := [(0, { state := .down })] },
      .ring 0, (cmd 0x0611 [0, 1, 0, 0, 0, 0]), 0, ?_⟩,
    ⟨given ({ work with links := [(0, { state := .up })] }) (cmd 0x0611 [0x40000000, 1, 0, 0, 0, 0]),
      { work with links := [(0, { state := .up })] }, .ring 0, (cmd 0x0611 [0x40000000, 1, 0, 0, 0, 0]), 0, ?_⟩,
    ⟨given ({ work with links := [(0, { state := .markedOut })] }) (cmd 0x0611 [0x80000000, 1, 0, 0, 0, 0]),
      { work with links := [(0, { state := .markedOut })] }, .ring 0, (cmd 0x0611 [0x80000000, 1, 0, 0, 0, 0]), 0, ?_⟩,
    ⟨given (work) (cmd 0x0612 [35]), work, .ring 0, (cmd 0x0612 [35]), ?_⟩,
    ⟨{ work with route := some { (default : RouteImage) with variants := [(3, [])] } }, { (default : RouteImage) with variants := [(3, [])] },
      (3, []), ?_⟩,
    ⟨{ busy { task .running with image := { plan with elcorMin := [(0, 1)] } } with route := some { (default : RouteImage) with routes := [(1, [0])], variants := [(3, [])] }, links := [(0, { state := .markedOut })], pair := { state := .solo } },
      { (default : RouteImage) with routes := [(1, [0])], variants := [(3, [])] }, (3, []), ?_⟩,
    ⟨{ busy { task .running with image := { plan with elcorMin := [(0, 1)] } } with route := some { (default : RouteImage) with routes := [(1, [0])], variants := [(3, [])] }, links := [(0, { state := .markedOut })], pair := { state := .mirrored } },
      { (default : RouteImage) with routes := [(1, [0])], variants := [(3, [])] }, (3, []), ?_⟩⟩
  all_goals and_intros
  all_goals decide +kernel

set_option maxRecDepth 100000 in
/-- What `Obligations.TimeAndReferenceEvents` assumes can be met, clause by clause. -/
theorem test_hyps_TimeAndReferenceEvents :
    (∃ (s : State), s.slipSec < s.time.now / 1000000000) ∧
    (∃ (s : State) (e : Nat), s.time.locked = true ∧ e ≠ 0 ∧ (s.ref 1).state = 0 ∧ (s.ref 0).state = 0) ∧
    (∃ (s : State) (e : Nat), s.time.locked = true ∧ e ≠ 0 ∧ (s.ref 1).state = 0 ∧ (s.ref 0).state = 1 ∧ 500 ≤ (meanDrift (lastN 10 ((s.ref
      0).drifts ++ [((e : Int) - nomHz (s.ref 0).nom / 10) * 10000000 / (nomHz (s.ref 0).nom / 10)]))).natAbs ∧ (meanDrift (lastN 10 ((s.ref
      0).drifts ++ [((e : Int) - nomHz (s.ref 0).nom / 10) * 10000000 / (nomHz (s.ref 0).nom / 10)]))).natAbs < 2000 ∧ (((e : Int) - nomHz
      (s.ref 0).nom / 10) * 10000000 / (nomHz (s.ref 0).nom / 10)).natAbs < 10000) ∧
    (∃ (s : State) (e : Nat), s.time.locked = true ∧ e ≠ 0 ∧ (s.ref 1).state = 0 ∧ (s.ref 0).state = 1 ∧ (2000 ≤ (meanDrift (lastN 10
      ((s.ref 0).drifts ++ [((e : Int) - nomHz (s.ref 0).nom / 10) * 10000000 / (nomHz (s.ref 0).nom / 10)]))).natAbs ∨ 10000 ≤ (((e : Int)
      - nomHz (s.ref 0).nom / 10) * 10000000 / (nomHz (s.ref 0).nom / 10)).natAbs)) ∧
    (∃ (s : State) (r : Fin 2), s.time.locked = true ∧ ((s.ref r).state = 1 ∨ (s.ref r).state = 2)) ∧
    (∃ (s : State) (l : Fin 36), s.hears l = true ∧ s.time.master = true) ∧
    (∃ (s : State) (l : Fin 36) (x : Nat) (echo : Nat) (recv : Nat), s.hears l = true ∧ s.time.master = false ∧ s.time.parent = l.val ∧ echo
      ≠ 0 ∧ s.time.jumped = true ∧ ((((s.time.now : Int) - x) - ((recv : Int) - echo)) / 2 : Int).natAbs ≤ 20 ∧ (∀ n < 36, (s.link
      n).offset.natAbs ≤ 50)) ∧
    (∃ (s : State) (l : Fin 36) (x : Nat) (echo : Nat) (recv : Nat), s.hears l = true ∧ s.time.master = false ∧ s.time.parent = l.val ∧ echo
      ≠ 0 ∧ s.time.jumped = false ∧ ((((s.time.now : Int) - x) - ((recv : Int) - echo)) / 2 : Int) < 0) ∧
    (∃ (s : State) (at_ : Nat), s.time.noParent = some at_ ∧ at_ + 1000000 ≤ s.time.up ∧ s.time.master = false ∧ (∀ p ∈ s.parents, (s.link
      p).state ≠ .up)) ∧
    (∃ (s : State), s.time.master = true ∧ s.time.ppsEn = true) ∧
    (∃ (s : State), s.time.master = true ∧ s.time.timeOut = false ∧ s.time.now % 1000000000 < 1000 ∧ s.time.pulseAt ≠ s.time.now /
      1000000000 * 1000000000) ∧
    (∃ (s : State), s.time.timeOut = true ∧ s.time.pulseAt + 1000 ≤ s.time.now) := by
  refine ⟨⟨{ work with time := { now := 1000000000 } }, ?_⟩,
    ⟨{ work with time := { locked := true }, refs := [(0, { edgeRun := 9 })] }, 1, ?_⟩,
    ⟨{ work with time := { locked := true }, refs := [(0, { state := 1, drifts := [1000, 1000, 1000, 1000, 1000, 1000, 1000, 1000, 1000] })] },
      1128960, ?_⟩,
    ⟨{ work with time := { locked := true }, refs := [(0, { state := 1, drifts := [] })] }, 1, ?_⟩,
    ⟨{ work with time := { locked := true }, refs := [(0, { state := 2 })] }, 0, ?_⟩,
    ⟨{ linked 0 with time := { master := true } }, 0, ?_⟩,
    ⟨{ linked 0 with time := { parent := 0, jumped := true, now := 100 } }, 0, 100, 1, 21, ?_⟩,
    ⟨{ linked 0 with time := { parent := 0 } }, 0, 100, 1, 1, ?_⟩,
    ⟨{ work with time := { noParent := some 0, up := 1000000 } }, 0, ?_⟩,
    ⟨{ work with time := { master := true, ppsEn := true } }, ?_⟩,
    ⟨{ work with time := { master := true, now := 1000000999 } }, ?_⟩,
    ⟨{ work with time := { timeOut := true, now := 1000 } }, ?_⟩⟩
  all_goals and_intros
  all_goals decide +kernel

set_option maxRecDepth 100000 in
/-- What `Obligations.MatrixLoadsStart` assumes can be met, clause by clause. -/
theorem test_hyps_MatrixLoadsStart :
    (∃ (s : State) (c : Fin 24) (e : QEntry), AtHead s c 0 0x01 e ∧ MeAwake (s.core c) ∧ (meWordsOk e.words (meFlagsAllowed 1) && planeOk
      e.words 2 false && weightPlaneOk (planeAt e.words 2) && zeroWords e.words 8 8) = true ∧ planePound (s.core c).spad e.job (planeAt
      e.words 2) false = true ∧ (s.core c).me.settle.shadowSet.state = 0 ∧ tagCheck (s.core c).spad (planeAt e.words 2) = none ∧ headerOk
      (readPlane (s.core c).spad (planeAt e.words 2)) (planeAt e.words 2).fmt (mBashaba e.words) = true) ∧
    (∃ (s : State) (c : Fin 24) (e : QEntry), AtHead s c 0 0x07 e ∧ MeAwake (s.core c) ∧ (meWordsOk e.words 0 && planeOk e.words 2 false &&
      planeOk e.words 8 false && bits (dw e.words 14) 30 2 == 0 && bits (dw e.words 14) 9 17 == 0 && bits (dw e.words 14) 26 2 != 3 &&
      decide (kValid e.words ≤ 256) && zeroWords e.words 15 1) = true ∧ (planeAt e.words 2).fmt = (if kInt4 e.words then 8 else 7) ∧
      (planeAt e.words 2).rowsM1 = 0 ∧ (planeAt e.words 2).skew = 0 ∧ (planeAt e.words 2).rowBytes = 256 * kDh e.words / (if kInt4 e.words
      then 2 else 1) ∧ (planeAt e.words 8).fmt = 1 ∧ (planeAt e.words 8).rowsM1 = 0 ∧ (planeAt e.words 8).skew = 0 ∧ (planeAt e.words
      8).rowBytes = 256 * kDh e.words / 32 ∧ planePound (s.core c).spad e.job (planeAt e.words 2) false = true ∧ planePound (s.core c).spad
      e.job (planeAt e.words 8) false = true ∧ (s.core c).me.settle.shadowSet.state = 0 ∧ tagCheckCut (s.core c).spad (planeAt e.words 2)
      (kValid e.words * kDh e.words / (if kInt4 e.words then 2 else 1)) = none ∧ tagCheckCut (s.core c).spad (planeAt e.words 8) (kValid
      e.words * kDh e.words / 32) = none) ∧
    (∃ (s : State) (c : Fin 24) (e : QEntry), AtHead s c 0 0x04 e ∧ MeAwake (s.core c) ∧ (meWordsOk e.words 0 && planeOk e.words 2 false &&
      (planeAt e.words 2).fmt == 0 && (planeAt e.words 2).rowsM1 == 0 && (planeAt e.words 2).widthM1 == 63 && zeroWords e.words 8 8) = true
      ∧ planePound (s.core c).spad e.job (planeAt e.words 2) false = true ∧ claimConflict (s.core c).running (writeClaim (mBank e.words)) =
      false ∧ s.claimYields c 0 e.stamp (writeClaim (mBank e.words)) = false ∧ tagCheck (s.core c).spad (planeAt e.words 2) = none) ∧
    (∃ (s : State) (c : Fin 24) (e : QEntry), AtHead s c 0 0x09 e ∧ MeAwake (s.core c) ∧ (meWordsOk (withoutCheck e.words) 36 && mNextw
      (withoutCheck e.words) && planeOk (withoutCheck e.words) 2 false && actPlaneOk (planeAt (withoutCheck e.words) 2) (mBashaba
      (withoutCheck e.words)) && planeOk (withoutCheck e.words) 8 false && weightPlaneOk (planeAt (withoutCheck e.words) 8) && decide (2 <
      (planeAt (withoutCheck e.words) 2).fmt) && decide (2 < (planeAt (withoutCheck e.words) 8).fmt) && bits (dw (withoutCheck e.words) 14)
      0 5 == 0 && bits (dw (withoutCheck e.words) 15) 0 5 == 0 && bits (dw e.words 15) 29 3 == 0 && decide (mRow0 (withoutCheck e.words) +
      (planeAt (withoutCheck e.words) 2).rows ≤ 256)) = true ∧ planePound (s.core c).spad (dJob (withoutCheck e.words)) (planeAt
      (withoutCheck e.words) 2) false = true ∧ planePound (s.core c).spad (dJob (withoutCheck e.words)) (planeAt (withoutCheck e.words) 8)
      false = true ∧ (mBashaba (withoutCheck e.words) = false → ((s.core c).spad.pound (planeAt (withoutCheck e.words) 2).pound).allows
      (dJob (withoutCheck e.words)) false (bits (dw (withoutCheck e.words) 14) 0 24 + 8 * (planeAt (withoutCheck e.words) 2).rows) = true) ∧
      ((blockOf (readPlane (s.core c).spad (planeAt (withoutCheck e.words) 8))).outIdx ≠ [] → ((s.core c).spad.pound (planeAt (withoutCheck
      e.words) 2).pound).allows (dJob (withoutCheck e.words)) false (bits (dw (withoutCheck e.words) 15) 0 24 + 32 * (planeAt (withoutCheck
      e.words) 2).rows) = true) ∧ tagCheck (s.core c).spad (planeAt (withoutCheck e.words) 2) = none ∧ tagCheck (s.core c).spad (planeAt
      (withoutCheck e.words) 8) = none ∧ headerOk (readPlane (s.core c).spad (planeAt (withoutCheck e.words) 8)) (planeAt (withoutCheck
      e.words) 8).fmt (mBashaba (withoutCheck e.words)) = true) := by
  refine ⟨⟨posted 0 [1, 0, 0, 0x30057f, 0x580] (ground [(0, 6)]), 0, { words := [1, 0, 0, 0x30057f, 0x580] }, ?_⟩,
    ⟨posted 0 [7, 0, 0, 0x3801ff, 0x200, 0, 0, 0, 0, 0x8000f, 0x10], 0, { words := [7, 0, 0, 0x3801ff, 0x200, 0, 0, 0, 0, 0x8000f, 0x10] }, ?_⟩,
    ⟨posted 0 [4, 0, 0, 0x3f, 0x40], 0, { words := [4, 0, 0, 0x3f, 0x40] }, ?_⟩,
    ⟨posted 0 [9, 0x10000000, 0, 0x300003, 4, 0, 0, 0, 0, 0x30057f, 0x580] (ground [(0, 6)]), 0,
      { words := [9, 0x10000000, 0, 0x300003, 4, 0, 0, 0, 0, 0x30057f, 0x580] }, ?_⟩⟩
  all_goals and_intros
  all_goals decide +kernel

set_option maxRecDepth 100000 in
/-- What `Obligations.MatrixCommandsStart` assumes can be met, clause by clause. -/
theorem test_hyps_MatrixCommandsStart :
    (∃ (s : State) (c : Fin 24) (e : QEntry) (act : WeightSet), AtHead s c 0 0x02 e ∧ MatmulReady (s.core c) e.words act ∧ s.claimYields c 0
      e.stamp (writeClaim (mBank e.words)) = false) ∧
    (∃ (s : State) (c : Fin 24) (e : QEntry) (act : WeightSet), AtHead s c 0 0x08 e ∧ MatmulReady (s.core c) (withoutCheck e.words) act ∧
      s.claimYields c 0 e.stamp (writeClaim (mBank e.words)) = false ∧ 2 < (planeAt e.words 2).fmt ∧ (mNextw e.words = true → 2 < (planeAt
      e.words 8).fmt) ∧ bits (dw e.words 15) 29 3 = 0) ∧
    (∃ (s : State) (c : Fin 24) (e : QEntry), AtHead s c 0 0x03 e ∧ MeAwake (s.core c) ∧ (meWordsOk e.words (meFlagsAllowed 3) && planeOk
      e.words 2 true && drainPlaneOk (planeAt e.words 2) (mRescale e.words) && zeroWords e.words 8 8 && decide (mRow0 e.words + (planeAt
      e.words 2).rows ≤ 256)) = true ∧ planePound (s.core c).spad e.job (planeAt e.words 2) true = true ∧ claimConflict (s.core c).running
      (readClaim (mBank e.words)) = false ∧ s.claimYields c 0 e.stamp (readClaim (mBank e.words)) = false ∧ (∀ r < (planeAt e.words 2).rows,
      (planeAt e.words 2).fmt = 0x11 → (s.core c).me.int32 (mBank e.words) (mRow0 e.words + r) = true) ∧ (∀ r < (planeAt e.words 2).rows,
      (planeAt e.words 2).fmt ≠ 0x11 → mRescale e.words = false → (s.core c).me.int32 (mBank e.words) (mRow0 e.words + r) = false) ∧
      berthFull (s.core c).spad (planeAt e.words 2) = none) ∧
    (∃ (s : State) (c : Fin 24) (e : QEntry), AtHead s c 0 0x05 e ∧ MeAwake (s.core c) ∧ (meWordsOk e.words (meFlagsAllowed 5) && zeroWords
      e.words 2 12 && bits (dw e.words 14) 8 24 == 0 && zeroWords e.words 15 1 && decide (mRow0 e.words + (bits (dw e.words 14) 0 8 + 1) ≤
      256)) = true ∧ claimConflict (s.core c).running (writeClaim (mBank e.words)) = false ∧ s.claimYields c 0 e.stamp (writeClaim (mBank
      e.words)) = false) ∧
    (∃ (s : State) (c : Fin 24) (e : QEntry), AtHead s c 0 0x06 e ∧ (meWordsOk e.words 0 && zeroWords e.words 2 14) = true ∧ (s.core
      c).me.waking = false) := by
  refine ⟨⟨posted 0 [2, 0, 0, 0x300003, 4] ({ ground with me := { gated := false, set0 := { state := 2 } } }), 0, { words := [2, 0, 0, 0x300003, 4] },
      { state := 2 }, ?_⟩,
    ⟨posted 0 [8, 0, 0, 0x300003, 4] ({ ground with me := { gated := false, set0 := { state := 2 } } }), 0, { words := [8, 0, 0, 0x300003, 4] },
      { state := 2 }, ?_⟩,
    ⟨posted 0 [3, 0, 0, 0x8000f, 0x10], 0, { words := [3, 0, 0, 0x8000f, 0x10] }, ?_⟩,
    ⟨posted 0 [5], 0, { words := [5] }, ?_⟩,
    ⟨posted 0 [6], 0, { words := [6] }, ?_⟩⟩
  all_goals and_intros
  all_goals decide +kernel

set_option maxRecDepth 100000 in
/-- What `Obligations.VectorAndGateCommandsStart` assumes can be met, clause by clause. -/
theorem test_hyps_VectorAndGateCommandsStart :
    (∃ (s : State) (c : Fin 24) (e : QEntry), AtHead s c 2 0x02 e ∧ (veWordsOk e.words && zeroWords e.words 2 12 && bits (dw e.words 14) 30
      2 == 0 && bits (dw e.words 14) 5 15 == 0 && decide (bits (dw e.words 14) 23 3 + bits (dw e.words 14) 20 3 ≤ 7)) = true) ∧
    (∃ (s : State) (c : Fin 24) (e : QEntry), AtHead s c 2 0x03 e ∧ (veWordsOk e.words && planeOk e.words 2 false && (planeAt e.words 2).fmt
      == 0 && (planeAt e.words 2).count == 128 && zeroWords e.words 8 6 && bits (dw e.words 14) 6 26 == 0) = true ∧ veReadBlocked (s.core c)
      (planeAt e.words 2) = false ∧ bits (dw e.words 14) 0 6 < (veRange (s.core c) e.job).2.1 ∧ planePound (s.core c).spad e.job (planeAt
      e.words 2) false = true ∧ tagCheck (s.core c).spad (planeAt e.words 2) = none ∧ flightValid (bytesToWords (readPlane (s.core c).spad
      (planeAt e.words 2))) = true) ∧
    (∃ (s : State) (c : Fin 24) (e : QEntry) (fb : List Byte), AtHead s c 2 0x01 e ∧ (veWordsOk e.words && bits (dw e.words 14) 27 5 == 0 &&
      (vSrcKind e.words == 2 || vePlaneOk e.words 2 (vSrcKind e.words) false) && (if vDstKind e.words = 3 then planeReservedOk e.words 8 &&
      fmtListed (planeAt e.words 8).fmt && (planeAt e.words 8).tagmode != 3 else vePlaneOk e.words 8 (vDstKind e.words) true) && (planeAt
      e.words 2).fmt != 0 && (vSrcKind e.words != 2 || (decide (vRow0 e.words + (planeAt e.words 2).rowsM1 ≤ 255) && ((planeAt e.words
      2).fmt == 0x10 || (planeAt e.words 2).fmt == 0x11))) && (!vSumRows e.words || decide ((planeAt e.words 2).rows ≤ 1024))) = true ∧ bits
      (dw e.words 14) 20 6 < (veRange (s.core c) e.job).2.1 ∧ entryComing (s.core c) ((veRange (s.core c) e.job).1 + bits (dw e.words 14) 20
      6) = false ∧ OTable.at? (s.core c).ve.flights ((veRange (s.core c) e.job).1 + bits (dw e.words 14) 20 6) = some fb ∧ (flightValid
      (bytesToWords fb) && flightSpans e.words (bytesToWords fb) && flightFits e.words (bytesToWords fb) && flightPounds (s.core c) e.words
      (bytesToWords fb)) = true ∧ (vDstKind e.words == 3 || (planeAt e.words 8).fmt == (lastCvt (bytesToWords fb)).getD 0x10) = true ∧
      (vSrcKind e.words = 2 → ∀ r < (planeAt e.words 2).rows, (s.core c).me.int32 (vBank e.words) (vRow0 e.words + r) = ((planeAt e.words
      2).fmt == 0x11)) ∧ (bitAt (dw (bytesToWords fb) 17) 31 = true → vRowBase e.words + (planeAt e.words 2).rowsM1 ≤ 1023) ∧ (vOverlap
      e.words = true → veCycles (s.core c) e.words (bytesToWords fb) ≤ 60000) ∧ claimConflict (s.core c).running (banksRead e.words
      (bytesToWords fb)) = false ∧ s.claimYields c 2 e.stamp (banksRead e.words (bytesToWords fb)) = false ∧ veBlocked (s.core c) e.words
      (bytesToWords fb) = false ∧ (∀ f rc, finalCvt e.words (bytesToWords fb) = some f → fmtNarrow f = true → rc = readScaleRec (s.core
      c).spad (bits (dw (bytesToWords fb) 17) 28 3) (recAt e.words (bytesToWords fb)) (vN (vSrcKind e.words) (planeAt e.words 2)) → rc.fmt =
      f ∧ rc.channels = vN (vSrcKind e.words) (planeAt e.words 2) ∧ (rc.bashaba = true → rc.fmt = 7)) ∧ (vSrcKind e.words = 0 → tagCheck
      (s.core c).spad (planeAt e.words 2) = none) ∧ (vDstKind e.words = 0 → berthFull (s.core c).spad (planeAt e.words 8) = none)) ∧
    (∃ (s : State) (c : Fin 24) (e : QEntry), AtHead s c 1 0x01 e ∧ gpLegal (s.core c).spad e.words = true ∧ (((s.core c).spad.pound (bits
      (dw e.words 14) 26 3)).allows e.job false (bits (dw e.words 14) 0 16 * 256 + 256) && ctxOk e.words (ctxWords (s.core c).spad e.words)
      (planeAt e.words 2).rows && planePound (s.core c).spad e.job (planeAt e.words 2) false && planePound (s.core c).spad e.job (planeAt
      e.words 8) true && ((s.core c).spad.pound (bits (dw e.words 15) 28 3)).allows e.job false (bits (dw e.words 15) 0 24 + 256) && (!gInit
      e.words || ((s.core c).spad.pound (bits (dw (ctxWords (s.core c).spad e.words) 1) 28 3)).allows e.job false (bits (dw (ctxWords
      (s.core c).spad e.words) 1) 0 24 + (if gCell e.words = 0 then 2048 else 1024))) && ((if gCell e.words = 0 ∧ gPeep e.words then 3072
      else if gCell e.words = 4 then 2048 else 0) == 0 || ((s.core c).spad.pound (bits (dw (ctxWords (s.core c).spad e.words) 2) 28
      3)).allows e.job false (bits (dw (ctxWords (s.core c).spad e.words) 2) 0 24 + (if gCell e.words = 0 ∧ gPeep e.words then 3072 else if
      gCell e.words = 4 then 2048 else 0))) && (!gHout e.words || planePound (s.core c).spad e.job (planeAt (ctxWords (s.core c).spad
      e.words) 8) true) && (!gPlane e.words || planePound (s.core c).spad e.job (planeAt (ctxWords (s.core c).spad e.words) 16) false)) =
      true ∧ (gSame e.words = true → gpCycles (s.core c) e.words (ctxWords (s.core c).spad e.words) ≤ 60000) ∧ claimConflict (s.core
      c).running (gpClaims e.words) = false ∧ s.claimYields c 1 e.stamp (gpClaims e.words) = false ∧ gpBlocked (s.core c) e.words (ctxWords
      (s.core c).spad e.words) = false ∧ (gPlane e.words = false → gRescale e.words = false → ∀ q < cellSlots (gCell e.words), ∀ r <
      (planeAt e.words 2).rows, (s.core c).me.int32 (gSlotBank e.words q) (gRow0 e.words + r) = false) ∧ tagCheck (s.core c).spad (planeAt
      e.words 2) = none ∧ berthFull (s.core c).spad (planeAt e.words 8) = none ∧ (gPlane e.words = true → tagCheck (s.core c).spad (planeAt
      (ctxWords (s.core c).spad e.words) 16) = none) ∧ (gHout e.words = true → berthFull (s.core c).spad (planeAt (ctxWords (s.core c).spad
      e.words) 8) = none)) := by
  refine ⟨⟨posted 2 [2], 0, { words := [2] }, ?_⟩,
    ⟨posted 2 [3, 0, 0, 3, 4] ({ ground with ve := { ranges := [(0, (0, 1, 0, 0))], flights := [(0, some (List.replicate 128 0))] } }), 0,
      { words := [3, 0, 0, 3, 4] }, ?_⟩,
    ⟨posted 2 [1, 0, 0, 0x800007, 8, 0, 0, 0, 0x1000, 0x800007, 8]
      ({ ground with ve := { ranges := [(0, (0, 1, 0, 0))], flights := [(0, some (List.replicate 128 0))] } }), 0,
      { words := [1, 0, 0, 0x800007, 8, 0, 0, 0, 0x1000, 0x800007, 8] }, List.replicate 128 0, ?_⟩,
    ⟨posted 1 [1, 0x60000000, 0x10000, 0x80003f, 0x40, 0, 0, 0, 0x20000, 0x80003f, 0x40], 0,
      { words := [1, 0x60000000, 0x10000, 0x80003f, 0x40, 0, 0, 0, 0x20000, 0x80003f, 0x40] }, ?_⟩⟩
  all_goals and_intros
  all_goals first | decide +kernel | (intros; contradiction)

set_option maxRecDepth 100000 in
/-- What `Obligations.DataMoverCommandsStart` assumes can be met, clause by clause. -/
theorem test_hyps_DataMoverCommandsStart :
    (∃ (s : State) (c : Fin 24) (e : QEntry), AtHead s c 3 0x01 e ∧ (dmWordsOk e.words && planeOk e.words 2 false && planeOk e.words 8 true
      && zeroWords e.words 14 2 && (planeAt e.words 2).count == (planeAt e.words 8).count && planePound (s.core c).spad e.job (planeAt
      e.words 2) false && planePound (s.core c).spad e.job (planeAt e.words 8) true) = true ∧ planesMeet (s.core c).spad (planeAt e.words 2)
      (planeAt e.words 8) = false ∧ tagCheck (s.core c).spad (planeAt e.words 2) = none ∧ berthFull (s.core c).spad (planeAt e.words 8) =
      none ∧ ((planeAt e.words 2).tagmode = 0 ∨ (planeAt e.words 8).tagmode = 0 ∨ copyCrcOk (s.core c).spad (planeAt e.words 2) (newTags
      (writePlane (s.core c).spad (planeAt e.words 8) (readPlane (s.core c).spad (planeAt e.words 2))) (planeAt e.words 8) (sourceTensors
      (s.core c).spad (planeAt e.words 2))) = true)) ∧
    (∃ (s : State) (c : Fin 24) (e : QEntry), AtHead s c 3 0x02 e ∧ (dmWordsOk e.words && zeroWords e.words 2 6 && planeOk e.words 8 true &&
      zeroWords e.words 15 1 && planePound (s.core c).spad e.job (planeAt e.words 8) true) = true ∧ berthFull (s.core c).spad (planeAt
      e.words 8) = none) ∧
    (∃ (s : State) (c : Fin 24) (e : QEntry), AtHead s c 3 0x04 e ∧ remoteOk c e.words = true ∧ planePound (s.core c).spad e.job (planeAt
      e.words 8) true = true ∧ ((s.core (dw e.words 14)).spad.pound (planeAt e.words 2).pound).allowsRemote false (planeAt e.words 2).endb =
      true ∧ tagCheck (s.core (dw e.words 14)).spad (planeAt e.words 2).flat = none ∧ berthFull (s.core c).spad (planeAt e.words 8) = none ∧
      ((planeAt e.words 2).tagmode = 0 ∨ (planeAt e.words 8).tagmode = 0 ∨ copyCrcOk (s.core (dw e.words 14)).spad (planeAt e.words 2).flat
      (newTags (writePlane (s.core c).spad (planeAt e.words 8) (readPlane (s.core (dw e.words 14)).spad (planeAt e.words 2).flat)) (planeAt
      e.words 8) (sourceTensors (s.core (dw e.words 14)).spad (planeAt e.words 2).flat)) = true)) ∧
    (∃ (s : State) (c : Fin 24) (e : QEntry) (k : Nat) (cr : Credit), AtHead s c 3 0x03 e ∧ remoteOk c e.words = true ∧ planePound (s.core
      c).spad e.job (planeAt e.words 2) false = true ∧ creditFor (s.core c).spad e.job (dw e.words 14) (planeAt e.words 8).pound = some (k,
      cr) ∧ 0 < cr.avail ∧ (s.core c).sends = [] ∧ tagCheck (s.core c).spad (planeAt e.words 2) = none ∧ ((planeAt e.words 2).tagmode = 0 ∨
      (planeAt e.words 8).tagmode = 0 ∨ copyCrcOk (s.core c).spad (planeAt e.words 2) (newTags (writePlane (s.core (dw e.words 14)).spad
      (planeAt e.words 8).flat (readPlane (s.core c).spad (planeAt e.words 2))) (planeAt e.words 8).flat (sourceTensors (s.core c).spad
      (planeAt e.words 2))) = true)) := by
  refine ⟨⟨posted 3 [1, 0, 0, 3, 4, 0, 0, 0, 0x1000, 3, 4], 0, { words := [1, 0, 0, 3, 4, 0, 0, 0, 0x1000, 3, 4] }, ?_⟩,
    ⟨posted 3 [2, 0, 0, 0, 0, 0, 0, 0, 0, 3, 4], 0, { words := [2, 0, 0, 0, 0, 0, 0, 0, 0, 3, 4] }, ?_⟩,
    ⟨posted 3 [4, 0, 0, 3, 4, 0, 0, 0, 0, 3, 4, 0, 0, 0, 1], 0, { words := [4, 0, 0, 3, 4, 0, 0, 0, 0, 3, 4, 0, 0, 0, 1] }, ?_⟩,
    ⟨posted 3 [3, 0, 0, 3, 4, 0, 0, 0, 0, 3, 4, 0, 0, 0, 1]
      ({ ground with spad := { ground.spad with credits := [(0, { valid := true, avail := 1, destCore := 1 })] } }), 0,
      { words := [3, 0, 0, 3, 4, 0, 0, 0, 0, 3, 4, 0, 0, 0, 1] }, 0, { valid := true, avail := 1, destCore := 1 }, ?_⟩⟩
  all_goals and_intros
  all_goals decide +kernel

set_option maxRecDepth 100000 in
/-- What `Obligations.HbmAndLinkCommandsStart` assumes can be met, clause by clause. -/
theorem test_hyps_HbmAndLinkCommandsStart :
    (∃ (s : State) (c : Fin 24) (e : QEntry), AtHead s c 3 0x08 e ∧ hbmOk e.words 8 2 false = true ∧ planePound (s.core c).spad e.job
      (planeAt e.words 8).flat true = true ∧ s.outsideArea (partOfCore c) (hBarge e.words) ((planeAt e.words 8).count / 4096) = false ∧
      berthFull (s.core c).spad (planeAt e.words 8).flat = none) ∧
    (∃ (s : State) (c : Fin 24) (e : QEntry), AtHead s c 3 0x09 e ∧ hbmOk e.words 2 8 true = true ∧ planePound (s.core c).spad e.job
      (planeAt e.words 2).flat false = true ∧ s.outsideArea (partOfCore c) (hBarge e.words) ((planeAt e.words 2).count / 4096) = false ∧
      s.inRanges (partOfCore c) (hBarge e.words) ((planeAt e.words 2).count / 4096) = false ∧ tagCheck (s.core c).spad (planeAt e.words
      2).flat = none) ∧
    (∃ (s : State) (c : Fin 24) (e : QEntry) (links : List Nat) (bs : List Byte), AtHead s c 3 0x0C e ∧ linkOk s.time.chip e.words = true ∧
      planePound (s.core c).spad e.job (planeAt e.words 2).flat false = true ∧ links = (if lStripe e.words then s.pathTo (s.target
      (lDestChip e.words)) else (s.pathTo (s.target (lDestChip e.words))).take 1) ∧ links ≠ [] ∧ (lStripe e.words = true → 2 ≤ links.length)
      ∧ (∀ l ∈ links, (s.link l).state = .up) ∧ (lRetain e.words = true → (s.core c).retained.length + (s.core c).running.countP (fun r =>
      r.effects.any (fun x => match x with | .retain .. => true | _ => false)) < 32) ∧ tagCheck (s.core c).spad (planeAt e.words 2).flat =
      none ∧ bs = readPlane (s.core c).spad (planeAt e.words 2).flat ∧ ((planeAt e.words 2).flat.barges ((s.core c).spad.pound (planeAt
      e.words 2).pound)).map (fun b => ((s.core c).spad.tag b.1).crc) = (List.range (bs.length / 4096)).map (fun j => crc32c ((bs.drop (4096
      * j)).take 4096))) := by
  refine ⟨⟨{ posted 3 [8, 0, 0, 0, 0, 0, 0, 0, 0, 0x7f, 0x80] with parts := [(0, { configured := true, hbmGib := 1 })] }, 0,
      { words := [8, 0, 0, 0, 0, 0, 0, 0, 0, 0x7f, 0x80] }, ?_⟩,
    ⟨{ posted 3 [9, 0, 0, 0x7f, 0x80] with parts := [(0, { configured := true, hbmGib := 1 })] }, 0, { words := [9, 0, 0, 0x7f, 0x80] }, ?_⟩,
    ⟨{ posted 3 [0xc, 0, 0x8000000, 0x7f, 0x80, 0, 0, 0, 0x8000000, 0x7f, 0x80, 0, 0, 0, 0x200000] ({ ground with spad := { ground.spad with tags := [(0, { v := true, crc := crc32c (List.replicate 4096 0) })] } }) with links := [(3, { state := .up, cred := [(0, 32)] })], route := some { (default : RouteImage) with routes := [(1, [3])] } },
      0, { words := [0xc, 0, 0x8000000, 0x7f, 0x80, 0, 0, 0, 0x8000000, 0x7f, 0x80, 0, 0, 0, 0x200000] }, [3], List.replicate 4096 0, ?_⟩⟩
  all_goals and_intros
  all_goals decide +kernel

set_option maxRecDepth 100000 in
/-- What `Obligations.LockCommandsComplete` assumes can be met, clause by clause. -/
theorem test_hyps_LockCommandsComplete :
    (∃ (s : State) (c : Fin 24) (q : Fin 4) (e : QEntry) (i : Instr) (op : Nat), (i, op) ∈ [(Instr.waitf c q, 0xE0), (Instr.waitd c q,
      0xE1), (Instr.waitComplete c q, 0xE0), (Instr.waitComplete c q, 0xE1)] ∧ ((s.core c).queue q).head? = some e ∧ e.op = op ∧ s.jobRuns c
      e.job = true ∧ s.stalledBy c e.job = false ∧ waitOk e.words = true ∧ ((s.core c).lock (wLock e.words)).valid = true ∧ ((s.core c).lock
      (wLock e.words)).owner = e.job ∧ wCount e.words ≤ ((s.core c).lock (wLock e.words)).depth ∧ ((op = 0xE0 ∧ ((s.core c).lock (wLock
      e.words)).occ + wCount e.words ≤ ((s.core c).lock (wLock e.words)).depth) ∨ (op = 0xE1 ∧ wCount e.words ≤ ((s.core c).lock (wLock
      e.words)).occ))) ∧
    (∃ (s : State) (c : Fin 24) (q : Fin 4) (e : QEntry) (i : Instr) (op : Nat), (i, op) ∈ [(Instr.waitf c q, 0xE0), (Instr.waitd c q,
      0xE1), (Instr.waitComplete c q, 0xE0), (Instr.waitComplete c q, 0xE1)] ∧ ((s.core c).queue q).head? = some e ∧ e.op = op ∧ s.jobRuns c
      e.job = true ∧ s.stalledBy c e.job = false ∧ waitOk e.words = true ∧ ((s.core c).lock (wLock e.words)).valid = true ∧ ((s.core c).lock
      (wLock e.words)).owner = e.job ∧ wCount e.words ≤ ((s.core c).lock (wLock e.words)).depth ∧ ((op = 0xE0 ∧ ((s.core c).lock (wLock
      e.words)).depth < ((s.core c).lock (wLock e.words)).occ + wCount e.words) ∨ (op = 0xE1 ∧ ((s.core c).lock (wLock e.words)).occ <
      wCount e.words))) ∧
    (∃ (s : State) (c : Fin 24) (q : Fin 4) (e : QEntry) (g : Signal), ((s.core c).queue q).head? = some e ∧ e.op = 0xE2 ∧ s.jobRuns c e.job
      = true ∧ s.stalledBy c e.job = false ∧ signalOk e.words = true ∧ (∀ r ∈ (s.core c).running, r.queue ≠ q.val) ∧ (dSignal c e.words).map
      (fun x => { x with amount := bits (dw e.words 1) 16 7 }) = some g ∧ sXchip e.words = false ∧ g.core = c.val ∧ ((s.core c).lock
      g.lock).valid = true ∧ ((s.core c).lock g.lock).owner = e.job ∧ (∀ o ∈ (s.core c).overflows, o.lock ≠ g.lock) ∧ (((s.core c).lock
      g.lock).add (if g.kind = 1 then g.amount else 0) (if g.kind = 2 then g.amount else 0)).inRange = true) ∧
    (∃ (s : State) (c : Fin 24) (q : Fin 4) (e : QEntry) (g : Signal), ((s.core c).queue q).head? = some e ∧ e.op = 0xE2 ∧ s.jobRuns c e.job
      = true ∧ s.stalledBy c e.job = false ∧ signalOk e.words = true ∧ (∀ r ∈ (s.core c).running, r.queue ≠ q.val) ∧ (dSignal c e.words).map
      (fun x => { x with amount := bits (dw e.words 1) 16 7 }) = some g ∧ sXchip e.words = false ∧ g.core ≠ c.val) ∧
    (∃ (s : State) (c : Fin 24) (q : Fin 4) (e : QEntry) (g : Signal), ((s.core c).queue q).head? = some e ∧ e.op = 0xE2 ∧ s.jobRuns c e.job
      = true ∧ s.stalledBy c e.job = false ∧ signalOk e.words = true ∧ (∀ r ∈ (s.core c).running, r.queue ≠ q.val) ∧ (dSignal c e.words).map
      (fun x => { x with amount := bits (dw e.words 1) 16 7 }) = some g ∧ sXchip e.words = true) ∧
    (∃ (s : State) (c : Fin 24) (q : Fin 4) (e : QEntry), ((s.core c).queue q).head? = some e ∧ e.op = 0xE3 ∧ s.jobRuns c e.job = true ∧
      s.stalledBy c e.job = false ∧ bits (dw e.words 0) 15 17 = 0 ∧ bits (dw e.words 1) 7 17 = 0 ∧ zeroWords e.words 2 14 = true ∧ bits (dw
      e.words 1) 0 7 ≠ 0 ∧ bits (dw e.words 1) 0 7 ≤ 64 ∧ ((s.core c).lock (wLock e.words)).valid = true ∧ ((s.core c).lock (wLock
      e.words)).owner = e.job) := by
  refine ⟨⟨posted 0 [0xe0, 0x40000] ({ ground with locks := [(0, { valid := true, depth := 4 })] }), 0, 0, { words := [0xe0, 0x40000] }, .waitf 0 0,
      0xE0, ?_⟩,
    ⟨posted 0 [0xe1, 0x40000] ({ ground with locks := [(0, { valid := true, depth := 4 })] }), 0, 0, { words := [0xe1, 0x40000] }, .waitd 0 0,
      0xE1, ?_⟩,
    ⟨posted 0 [0x100e2, 0x4001f] ({ ground with locks := [(0, { valid := true, depth := 4 })] }), 0, 0, { words := [0x100e2, 0x4001f] },
      { core := 0, lock := 0, kind := 1, amount := 4 }, ?_⟩,
    ⟨posted 0 [0x100e2, 0x40001] ({ ground with locks := [(0, { valid := true, depth := 4 })] }), 0, 0, { words := [0x100e2, 0x40001] },
      { core := 1, lock := 0, kind := 1, amount := 4 }, ?_⟩,
    ⟨posted 0 [0x100e2, 0x48001] ({ ground with locks := [(0, { valid := true, depth := 4 })] }), 0, 0, { words := [0x100e2, 0x48001] },
      { core := 1, lock := 0, kind := 1, amount := 4 }, ?_⟩,
    ⟨posted 0 [0xe3, 0x40] ({ ground with locks := [(0, { valid := true, depth := 4 })] }), 0, 0, { words := [0xe3, 0x40] }, ?_⟩⟩
  all_goals and_intros
  all_goals decide +kernel

set_option maxRecDepth 100000 in
/-- What `Obligations.CommitsAndDeadlines` assumes can be met, clause by clause. -/
theorem test_hyps_CommitsAndDeadlines :
    (∃ (s : State) (c : Fin 24) (q : Fin 4) (r : Running) (i : Nat) (n : Nat), (s.core c).running.find? (fun r => r.queue == q.val) = some r
      ∧ s.bargesDue c q r = false ∧ s.switchOwns c = false ∧ r.effects = [.depth i n] ∧ ((s.core c).lock i).occ ≤ n) ∧
    (∃ (s : State) (c : Fin 24) (q : Fin 4) (r : Running) (b : List Host.Cell) (g : List (Nat × Tag)) (n : List (Nat × Nat)) (o : List (Nat
      × Bool)), (s.core c).running.find? (fun r => r.queue == q.val) = some r ∧ s.bargesDue c q r = false ∧ s.switchOwns c = false ∧
      r.effects = [.hbm b, .hbmTags g, .hbmWrites n, .occ o]) ∧
    (∃ (s : State) (c : Fin 24) (q : Fin 4) (r : Running) (u : Nat) (ts : List (Nat × Word)) (ws : List Word), (s.core c).running.find? (fun
      r => r.queue == q.val) = some r ∧ s.bargesDue c q r = false ∧ s.switchOwns c = false ∧ q.val = 2 ∧ r.effects = [.busy 2 u, .tiles ts,
      .summary ws] ∧ (s.core c).ve.fifo.length < 16) ∧
    (∃ (s : State) (c : Fin 24) (q : Fin 4) (e : QEntry), ((s.core c).queue q).head? = some e ∧ (e.op = 0xE0 ∨ e.op = 0xE1) ∧ s.jobRuns c
      e.job = true ∧ s.stalledBy c e.job = false ∧ (∃ at_, e.headAt = some at_ ∧ at_ + (if wDeadline e.words = 0 then (s.core
      c).deadlineUs.toNat else wDeadline e.words) * 1000 ≤ s.time.up)) ∧
    (∃ (s : State) (c : Fin 24) (r : Running) (at_ : Nat), (s.core c).running.find? (fun r => r.queue == 2) = some r ∧ s.jobRuns c r.job =
      true ∧ (s.core c).ve.sumSince = some at_ ∧ 16 ≤ (s.core c).ve.fifo.length ∧ at_ + (s.core c).deadlineUs.toNat * 1000 ≤ s.time.up) ∧
    (∃ (s : State) (c : Fin 24) (at_ : Nat) (j : Nat), (s.core c).creditWait = some at_ ∧ (s.core c).creditWaiter = some j ∧ at_ + (s.core
      c).deadlineUs.toNat * 1000 ≤ s.time.up) ∧
    (∃ (s : State) (c : Fin 24) (x : LinkSend) (xs : List LinkSend), (s.core c).creditWait = none ∧ (s.core c).linkSends = x :: xs ∧ (s.link
      x.link).spare x.link = 0 ∧ max x.since (Table.look 0 (s.link x.link).dry (bargeVc x.link)) + (s.core c).deadlineUs.toNat * 1000 ≤
      s.time.up) ∧
    (∃ (s : State) (c : Fin 24) (q : Fin 4) (r : Running) (u : Nat) (ts : List (Nat × Word)) (ws : List Word), (s.core c).running.find? (fun
      r => r.queue == q.val) = some r ∧ s.bargesDue c q r = false ∧ s.switchOwns c = false ∧ q.val = 2 ∧ r.effects = [.busy 2 u, .tiles ts,
      .summary ws] ∧ 16 ≤ (s.core c).ve.fifo.length) := by
  refine ⟨⟨atCore { running := [going 0 [.depth 0 2]] }, 0, 0, going 0 [.depth 0 2], 0, 2, ?_⟩,
    ⟨atCore { running := [going 3 [.hbm [(0, 7)], .hbmTags [], .hbmWrites [(0, 4096)], .occ []]] }, 0, 3, going 3 [.hbm [(0, 7)], .hbmTags [],
      .hbmWrites [(0, 4096)], .occ []], [(0, 7)], [], [(0, 4096)], [], ?_⟩,
    ⟨atCore { running := [going 2 [.busy 2 5, .tiles [(0, 7)], .summary [9]]], ve := { fifo := List.replicate 15 [] } }, 0, 2, going 2 [.busy 2
      5, .tiles [(0, 7)], .summary [9]], 5, [(0, 7)], [9], ?_⟩,
    ⟨atCore { queues := [(0, [{ words := [0xe0, 0x10000], headAt := some 0 }])] } 50000, 0, 0, { words := [0xe0, 0x10000], headAt := some 0 },
      ?_⟩,
    ⟨atCore { running := [going 2 [.summary []]], ve := { sumSince := some 0, fifo := List.replicate 16 [] } } 50000000, 0, going 2 [.summary
      []], 0, ?_⟩,
    ⟨atCore { creditWait := some 0, queues := [(3, [{ words := [] }])] } 50000000, 0, 0, 0, ?_⟩,
    ⟨atCore { linkSends := [{ cmd := 0, job := 0, link := 3, run := dataRun 1, todo := [([], {})], since := 0 }] } 50000000, 0,
      { cmd := 0, job := 0, link := 3, run := dataRun 1, todo := [([], {})], since := 0 }, [], ?_⟩,
    ⟨atCore { running := [going 2 [.busy 2 5, .tiles [(0, 7)], .summary [9]]], ve := { fifo := List.replicate 16 [] } }, 0, 2, going 2 [.busy 2
      5, .tiles [(0, 7)], .summary [9]], 5, [(0, 7)], [9], ?_⟩⟩
  all_goals and_intros
  all_goals decide +kernel

set_option maxRecDepth 100000 in
/-- What `Obligations.CoreEventsComplete` assumes can be met, clause by clause. -/
theorem test_hyps_CoreEventsComplete :
    (∃ (s : State) (c : Fin 24), MeAwake (s.core c) ∧ (s.core c).queue 0 = [] ∧ (∀ r ∈ (s.core c).running, r.queue ≠ 0) ∧ (s.core
      c).me.idleAt + 2000 ≤ s.time.up) ∧
    (∃ (s : State) (c : Fin 24), (s.core c).me.waking = true ∧ (s.core c).me.wakeAt ≤ s.time.up) ∧
    (∃ (s : State) (c : Fin 24) (p : Parcel) (ps : List Parcel), (s.core c).arrivals = p :: ps ∧ p.src ≠ c.val ∧ p.dead = true) ∧
    (∃ (s : State) (c : Fin 24) (p : Parcel) (ps : List Parcel), (s.core c).arrivals = p :: ps ∧ p.src ≠ c.val ∧ p.dead = false ∧
      s.switchOwns c = false ∧ ((s.core c).spad.pound p.plane.pound).allowsRemote true p.plane.endb = true ∧ berthFull (s.core c).spad
      p.plane = none) ∧
    (∃ (s : State) (c : Fin 24) (f : CommitFlit) (gone : List Nat) (ts : List (Nat × Tag)) (os : List (Nat × Bool)) (sig : Option Signal)
      (rest : List CommitFlit), (s.core c).commits = f :: rest ∧ f.effects = [.untag gone, .tags ts, .occ os] ++ (sig.map Eff.signal).toList
      ∧ s.switchOwns c = false ∧ (∀ p ∈ (s.core c).arrivals, p.src = f.src → p.cmd = f.cmd → p.dead = true)) ∧
    (∃ (s : State) (c : Fin 24) (i : Nat) (job : Nat) (rest : List (Nat × Nat)), (s.core c).returns = (i, job) :: rest ∧ (Table.look {}
      (s.core c).spad.credits i).valid = true ∧ (Table.look {} (s.core c).spad.credits i).job = job ∧ s.freeing.contains job = false ∧ (∀ x
      ∈ (s.core c).sends, x.credit = i → x.asked = true)) ∧
    (∃ (s : State) (c : Fin 24) (i : Nat) (job : Nat) (rest : List (Nat × Nat)), (s.core c).returns = (i, job) :: rest ∧ (Table.look {}
      (s.core c).spad.credits i).valid = true ∧ (Table.look {} (s.core c).spad.credits i).job = job) ∧
    (∃ (s : State) (c : Fin 24) (i : Nat) (job : Nat) (rest : List (Nat × Nat)), (s.core c).returns = (i, job) :: rest ∧ s.freeing.contains
      job = true) ∧
    (∃ (s : State) (c : Fin 24) (at_ : Nat) (g : Signal) (gs : List (Nat × Signal)), (s.core c).signals = (at_, g) :: gs ∧ at_ ≤ s.time.up ∧
      (∀ e ∈ gs, at_ ≤ e.1)) ∧
    (∃ (s : State) (c : Fin 24) (at_ : Nat) (g : Signal) (gs : List (Nat × Signal)), (s.core c).signals = (at_, g) :: gs ∧ at_ ≤ s.time.up ∧
      (∀ e ∈ gs, at_ ≤ e.1) ∧ (∀ e ∈ gs, at_ < e.1) ∧ ((s.core c).lock g.lock).takesRemote = true ∧ (∀ o ∈ (s.core c).overflows, o.lock ≠
      g.lock) ∧ (((s.core c).lock g.lock).add (if g.kind = 1 then g.amount else 0) (if g.kind = 2 then g.amount else 0)).inRange = true) ∧
    (∃ (s : State) (c : Fin 24) (i : Fin 256), ((s.core c).lock i).quar = true ∧ ((s.core c).lock i).killedAt + 100000 ≤ s.time.up) := by
  refine ⟨⟨atCore { me := { gated := false } } 2000, 0, ?_⟩,
    ⟨atCore { me := { waking := true } }, 0, ?_⟩,
    ⟨atCore
      { ground with arrivals := [{ src := 1, job := 0, credit := 0, plane := { (default : Plane) with pound := 0 }, bytes := [], dead := true }] },
      0, { src := 1, job := 0, credit := 0, plane := { (default : Plane) with pound := 0 }, bytes := [], dead := true }, [], ?_⟩,
    ⟨atCore { ground with arrivals := [{ src := 1, job := 0, credit := 0, plane := { (default : Plane) with pound := 0 }, bytes := [] }] }, 0,
      { src := 1, job := 0, credit := 0, plane := { (default : Plane) with pound := 0 }, bytes := [] }, [], ?_⟩,
    ⟨atCore { ground with commits := [{ src := 1, job := 0, cmd := 0, effects := [.untag [], .tags [], .occ []] }] }, 0,
      { src := 1, job := 0, cmd := 0, effects := [.untag [], .tags [], .occ []] }, [], [], [], none, [], ?_⟩,
    ⟨atCore { returns := [(0, 0)], spad := { credits := [(0, { valid := true })] } }, 0, 0, 0, [], ?_⟩,
    ⟨atCore { returns := [(0, 0)], spad := { credits := [(0, { valid := true })] } }, 0, 0, 0, [], ?_⟩,
    ⟨{ atCore { returns := [(0, 0)], spad := { credits := [(0, { valid := true })] } } with freeing := [0] }, 0, 0, 0, [], ?_⟩,
    ⟨atCore
      { signals := [(0, { core := 0, lock := 0, kind := 1, amount := 1 })], locks := [(0, { valid := true, remote := true, depth := 4 })] },
      0, 0, { core := 0, lock := 0, kind := 1, amount := 1 }, [], ?_⟩,
    ⟨atCore
      { signals := [(0, { core := 0, lock := 0, kind := 1, amount := 1 })], locks := [(0, { valid := true, remote := true, depth := 4 })] },
      0, 0, { core := 0, lock := 0, kind := 1, amount := 1 }, [], ?_⟩,
    ⟨atCore { locks := [(0, { quar := true })] } 100000, 0, 0, ?_⟩⟩
  all_goals and_intros
  all_goals decide +kernel

set_option maxRecDepth 100000 in
/-- What `Obligations.ControlCoreExecutes` assumes can be met, clause by clause. -/
theorem test_hyps_ControlCoreExecutes :
    (∃ (s : State) (c : Fin 24) (op : Alu) (w : Bool) (rd : Nat) (a : Nat) (b : Nat) (imm : DWord) (len : Nat) (i : Rv), (s.core
      c).cc.halted = false ∧ (s.core c).cc.stall = .none ∧ (s.core c).cc.fetch = some (i, len) ∧ (i = .opImm op w rd a imm ∨ i = .op op w rd
      a b)) ∧
    (∃ (s : State) (c : Fin 24) (f3 : Nat) (a : Nat) (b : Nat) (off : DWord) (len : Nat), (s.core c).cc.halted = false ∧ (s.core c).cc.stall
      = .none ∧ (s.core c).cc.fetch = some (.branch f3 a b off, len)) ∧
    (∃ (s : State) (c : Fin 24) (rd : Nat) (off : DWord) (len : Nat), (s.core c).cc.halted = false ∧ (s.core c).cc.stall = .none ∧ (s.core
      c).cc.fetch = some (.jal rd off, len) ∧ rd ≠ 0) ∧
    (∃ (s : State) (c : Fin 24) (a : Nat) (rd : Nat) (off : DWord) (len : Nat), (s.core c).cc.halted = false ∧ (s.core c).cc.stall = .none ∧
      (s.core c).cc.fetch = some (.load 3 rd a off, len) ∧ ((s.core c).cc.reg a + off).toNat % 8 = 0 ∧ ((s.core c).cc.reg a + off).toNat <
      0x40000 ∧ rd ≠ 0) ∧
    (∃ (s : State) (c : Fin 24) (a : Nat) (b : Nat) (off : DWord) (len : Nat), (s.core c).cc.halted = false ∧ (s.core c).cc.stall = .none ∧
      (s.core c).cc.fetch = some (.store 3 a b off, len) ∧ ((s.core c).cc.reg a + off).toNat % 8 = 0 ∧ ((s.core c).cc.reg a + off).toNat <
      0x40000) ∧
    (∃ (s : State) (c : Fin 24), (s.core c).cc.halted = false ∧ (s.core c).cc.stall = .none ∧ (s.core c).cc.fetch = none) := by
  refine ⟨⟨atCore { cc := { halted := false, mem := { cells := [(0, 147), (2, 16)] } } }, 0, .add, false, 1, 0, 0, 1, 4, .opImm .add false 1 0 1, ?_⟩,
    ⟨atCore { cc := { halted := false, mem := { cells := [(0, 99), (1, 4)] } } }, 0, 0, 0, 0, 8, 4, ?_⟩,
    ⟨atCore { cc := { halted := false, mem := { cells := [(0, 239), (2, 128)] } } }, 0, 1, 8, 4, ?_⟩,
    ⟨atCore { cc := { halted := false, mem := { cells := [(0, 131), (1, 48)] } } }, 0, 0, 1, 0, 4, ?_⟩,
    ⟨atCore { cc := { halted := false, mem := { cells := [(0, 35), (1, 48)] } } }, 0, 0, 0, 0, 4, ?_⟩,
    ⟨atCore { cc := { halted := false } }, 0, ?_⟩⟩
  all_goals and_intros
  all_goals decide +kernel

set_option maxRecDepth 100000 in
/-- What `Obligations.ControlCoreWindows` assumes can be met, clause by clause. -/
theorem test_hyps_ControlCoreWindows :
    (∃ (s : State) (c : Fin 24) (q : Fin 4), s.jobsIn (partOfCore c) .running ≠ [] ∧ ((s.core c).queue q).length < 64) ∧
    (∃ (s : State) (c : Fin 24) (q : Fin 4), s.jobsIn (partOfCore c) .running ≠ [] ∧ 64 ≤ ((s.core c).queue q).length) ∧
    (∃ (s : State) (c : Fin 24) (q : Fin 4), s.jobsIn (partOfCore c) .running ≠ [] ∧ (s.core c).cc.stall = .queue q ∧ ((s.core c).queue
      q).length < 64) ∧
    (∃ (s : State) (c : Fin 24), s.jobsIn (partOfCore c) .running = []) ∧
    (∃ (s : State) (c : Fin 24) (rd : Fin 32) (r : List Word) (rest : List (List Word)), (s.core c).ve.fifo = r :: rest ∧ rd.val ≠ 0) ∧
    (∃ (s : State) (c : Fin 24), (s.core c).ve.fifo = []) ∧
    (∃ (s : State) (c : Fin 24) (rd : Nat) (w : Nat) (at_ : Nat) (r : List Word) (rest : List (List Word)), (s.core c).cc.stall = .summary
      rd w at_ ∧ (s.core c).ve.fifo = r :: rest) ∧
    (∃ (s : State) (c : Fin 24) (rd : Nat) (w : Nat) (at_ : Nat), (s.core c).cc.stall = .summary rd w at_ ∧ (s.core c).ve.fifo = [] ∧ at_ +
      (s.core c).deadlineUs.toNat * 1000 ≤ s.time.up) ∧
    (∃ (s : State) (c : Fin 24), s.segmentPlaced c = false) ∧
    (∃ (s : State) (c : Fin 24), s.segmentPlaced c = true) := by
  refine ⟨⟨atCore {}, 0, 0, ?_⟩,
    ⟨atCore { queues := [(0, List.replicate 64 { words := [] })] }, 0, 0, ?_⟩,
    ⟨atCore { cc := { stall := .queue 0 } }, 0, 0, ?_⟩,
    ⟨work, 0, ?_⟩,
    ⟨atCore { ve := { fifo := [[]] } }, 0, 1, [], [], ?_⟩,
    ⟨work, 0, ?_⟩,
    ⟨atCore { cc := { stall := .summary 0 0 0 }, ve := { fifo := [[]] } }, 0, 0, 0, 0, [], [], ?_⟩,
    ⟨atCore { cc := { stall := .summary 0 0 0 } } 50000, 0, 0, 0, 0, ?_⟩,
    ⟨work, 0, ?_⟩,
    ⟨{ work with integ := { libValid := true }, health := [(0, { pass := some 0 })], mgmt := { acts := [(0x100, { phase := .granted })] } }, 0,
      ?_⟩⟩
  all_goals and_intros
  all_goals decide +kernel

set_option maxRecDepth 100000 in
/-- What `Obligations.FlashCommandsComplete` assumes can be met, clause by clause. -/
theorem test_hyps_FlashCommandsComplete :
    (∃ (s : State) (s1 : State) (via : Via) (c : Cmd) (img : FwImage), Runs s via 0x0801 (fun _ => true) s1 c ∧ 1 ≤ c.p 2 ∧ c.p 2 ≤ 16384 ∧
      s1.busyWith (fun a => conflicts a actFirmware) = none ∧ img.valid s1.flash.svn = true ∧ (∀ ep, c.origin = .tow ep → ∃ d, s1.dataOf c =
      some d ∧ d.want ≤ reach d.got)) ∧
    (∃ (s : State) (s1 : State) (via : Via) (c : Cmd) (i : Nat), Runs s via 0x0802 (fun _ => true) s1 c ∧ i < 2 ∧ s1.flash.valid i = true ∧
      (c.p 0 = i ∨ (c.p 0 = 0x100 + i ∧ (s1.pair.state = .unbound ∨ (s1.pair.state = .yielded ∧ s1.streams = []))))) ∧
    (∃ (s : State) (s1 : State) (via : Via) (c : Cmd), Runs s via 0x0803 (fun _ => true) s1 c ∧ c.p 0 < 65536 ∧ c.p 3 % 64 = 0) ∧
    (∃ (s : State) (s1 : State) (via : Via) (c : Cmd) (data : List Byte), Runs s via 0x0804 (fun _ => true) s1 c ∧ s1.busyWith (clash
      actLedger) = none ∧ 0x100 ≤ c.p 0 ∧ c.p 0 < 0x200 ∧ c.p 3 % 64 = 0 ∧ c.p 3 ≤ 65536 ∧ data.length = c.p 3 ∧ hostTotal (Table.put []
      s1.flash.pending.host (c.p 0 - 0x100) data) ≤ 131072) ∧
    (∃ (s : State) (s1 : State) (via : Via) (c : Cmd), Runs s via 0x0804 (fun _ => true) s1 c ∧ s1.busyWith (clash actLedger) = none ∧ c.p 0
      = 6 ∧ c.p 3 = 0) ∧
    (∃ (s : State) (s1 : State) (via : Via) (c : Cmd), Runs s via 0x0805 (fun c => c.action != 1) s1 c ∧ c.p 0 = 0) ∧
    (∃ (s : State) (s1 : State) (via : Via) (c : Cmd) (page : List Byte), Runs s via 0x0805 (fun c => c.action == 1) s1 c ∧ c.p 0 =
      0x40000000 ∧ c.p 1 < 16384 ∧ c.p 2 < 256 ∧ page.length = 16384) := by
  refine ⟨⟨given (work) (cmd 0x0801 [0, 0, 1]), work, .ring 0, (cmd 0x0801 [0, 0, 1]), newerImage, ?_⟩,
    ⟨given ({ work with flash := { fwB := some newerImage } }) (cmd 0x0802 [1]), { work with flash := { fwB := some newerImage } }, .ring 0, cmd
      0x0802 [1], 1, ?_⟩,
    ⟨given (work) (cmd 0x0803 [0x200, 0, 0, 64]), work, .ring 0, (cmd 0x0803 [0x200, 0, 0, 64]), ?_⟩,
    ⟨given (work) (cmd 0x0804 [0x1FF, 0, 0, 64]), work, .ring 0, (cmd 0x0804 [0x1FF, 0, 0, 64]), List.replicate 64 0, ?_⟩,
    ⟨given work (cmd 0x0804 [6, 0, 0, 0]), work, .ring 0, cmd 0x0804 [6, 0, 0, 0], ?_⟩,
    ⟨given (work) (cmd 0x0805 [0]), work, .ring 0, (cmd 0x0805 [0]), ?_⟩,
    ⟨given (work) (cmd 0x0805 [0x40000000, 16383, 255]), work, .ring 0, (cmd 0x0805 [0x40000000, 16383, 255]), List.replicate 16384 0, ?_⟩⟩
  all_goals and_intros
  all_goals first | decide +kernel | (intros; contradiction)

set_option maxRecDepth 100000 in
/-- What `Obligations.FlashEventsComplete` assumes can be met, clause by clause. -/
theorem test_hyps_FlashEventsComplete :
    (∃ (s : State), s.rst.ready = true) ∧
    (∃ (s : State) (r : DredgeRead), s.rst.ready = true ∧ ((s.act actDredge).phase = .granted ∨ (s.act actDredge).phase = .running) ∧
      r.block < 16384) ∧
    (∃ (s : State) (at_ : Nat), s.flash.pendingSince = some at_ ∧ at_ + 60000000000 ≤ s.time.up ∧ s.rst.ready = true) ∧
    (∃ (s : State), s.flash.reserve ≤ 512 ∧ s.flash.wearReported = none ∧ s.rst.ready = true) ∧
    (∃ (s : State) (n : Nat), n < 16384 ∧ s.flash.grown.length < 4096) := by
  refine ⟨⟨{ work with flash := { dredgeDue := 1 } }, ?_⟩,
    ⟨{ work with mgmt := { acts := [(actDredge, { phase := .granted })] } },
      { block := 16383, page := 0, bits := 39, retry := false, uncorrectable := false, last := false }, ?_⟩,
    ⟨{ work with flash := { pendingSince := some 0 }, time := { up := 60000000000 } }, 0, ?_⟩,
    ⟨{ work with flash := { factoryBad := List.range 5630 } }, ?_⟩,
    ⟨work, 16383, ?_⟩⟩
  all_goals and_intros
  all_goals decide +kernel

set_option maxRecDepth 100000 in
/-- What `Obligations.IntegrityCommandsComplete` assumes can be met, clause by clause. -/
theorem test_hyps_IntegrityCommandsComplete :
    (∃ (s : State) (s1 : State) (via : Via) (c : Cmd), Runs s via 0x0701 (fun c => c.action != 1) s1 c ∧ c.p 0 < 24 ∧ c.p 1 < 65536 ∧
      s1.busyWith (clash (actScan (c.p 0) false)) = none) ∧
    (∃ (s : State) (s1 : State) (via : Via) (c : Cmd) (k : Nat), Runs s via 0x0701 (fun c => c.action == 1) s1 c ∧ c.p 0 = 0x40000000 + k ∧
      k < 24 ∧ 10 ≤ c.p 1 ∧ c.p 1 ≤ 1440) ∧
    (∃ (s : State) (s1 : State) (via : Via) (c : Cmd), Runs s via 0x0703 (fun c => c.action == 0 || c.action == 3) s1 c ∧ c.p 0 < 24) ∧
    (∃ (s : State) (s1 : State) (via : Via) (c : Cmd) (k : Nat), Runs s via 0x0703 (fun c => c.action == 1) s1 c ∧ c.p 0 = 0x40000000 + k ∧
      k < 24) ∧
    (∃ (s : State) (s1 : State) (via : Via) (c : Cmd) (k : Nat), Runs s via 0x0703 (fun c => c.action == 2) s1 c ∧ c.p 0 = 0x80000000 + k ∧
      k < 24 ∧ (s1.healthOf k).state = 1) ∧
    (∃ (s : State) (s1 : State) (via : Via) (c : Cmd), Runs s via 0x0704 (fun _ => true) s1 c ∧ c.p 0 < 24 ∧ s1.pair.state = .unbound ∧ (∀ j
      < 96, (s1.job j).state = .free) ∧ s1.spareUsed (c.p 0) = false ∧ s1.busyWith (clash (actRemap (c.p 0))) = none) ∧
    (∃ (s : State) (s1 : State) (via : Via) (c : Cmd) (r : List Byte × Nat × List SigRec), Runs s via 0x0705 (fun _ => true) s1 c ∧ c.p 1 <
      65536 ∧ c.p 4 % 64 = 0 ∧ r = exportRecords (c.p 1) (c.p 4) ((s1.integ.ring ++ s1.integ.held).filter (fun e => c.p 0 ≤ e.index))) ∧
    (∃ (s : State) (s1 : State) (via : Via) (c : Cmd) (pkg : PatternPkg), Runs s via 0x0706 (fun _ => true) s1 c ∧ 1 ≤ c.p 2 ∧ c.p 2 ≤
      524288 ∧ s1.busyWith (clash actPattern) = none ∧ 64 < s1.flash.reserve ∧ (s1.flash.models.map (·.pkg.len4k)).sum + c.p 2 ≤ storeUnits
      ∧ s1.patternOk pkg = true ∧ (∀ ep, c.origin = .tow ep → ∃ d, s1.dataOf c = some d ∧ d.want ≤ reach d.got)) := by
  refine ⟨⟨given (work) (cmd 0x0701 [23, 0]), work, .ring 0, (cmd 0x0701 [23, 0]), ?_⟩,
    ⟨given (work) (cmd 0x0701 [0x40000017, 10]), work, .ring 0, (cmd 0x0701 [0x40000017, 10]), 23, ?_⟩,
    ⟨given (work) (cmd 0x0703 [23]), work, .ring 0, (cmd 0x0703 [23]), ?_⟩,
    ⟨given (work) (cmd 0x0703 [0x40000017]), work, .ring 0, (cmd 0x0703 [0x40000017]), 23, ?_⟩,
    ⟨given ({ work with health := [(23, { state := 1 })] }) (cmd 0x0703 [0x80000017]), { work with health := [(23, { state := 1 })] }, .ring 0,
      (cmd 0x0703 [0x80000017]), 23, ?_⟩,
    ⟨given (work) (cmd 0x0704 [23]), work, .ring 0, (cmd 0x0704 [23]), ?_⟩,
    ⟨given (work) (cmd 0x0705 [0, 0, 0, 0, 64]), work, .ring 0, (cmd 0x0705 [0, 0, 0, 0, 64]), ([], 0, []), ?_⟩,
    ⟨given (work) (cmd 0x0706 [0, 0, 1]), work, .ring 0, (cmd 0x0706 [0, 0, 1]),
      { version := 1, device := 0x3612, minFw := 0, signed := true, focus := [] }, ?_⟩⟩
  all_goals and_intros
  all_goals first | decide +kernel | (intros; contradiction)

set_option maxRecDepth 100000 in
/-- What `Obligations.IntegrityEventsComplete` assumes can be met, clause by clause. -/
theorem test_hyps_IntegrityEventsComplete :
    (∃ (s : State) (p : Fin 12) (id : Nat) (e : Check), e ∈ (s.check p).checks ∧ e.id = id ∧ (e.orig = none ∨ e.dup = none) ∧ e.since +
      40000 ≤ s.time.up) ∧
    (∃ (s : State) (c : Fin 24) (kind : Nat) (seg : Nat) (rest : List Nat), (s.integ.scanCore = some c.val ∨ (s.segmentPlaced c = true ∧
      ((s.live (partOfCore c)).isEmpty = true ∨ (s.healthOf c).pass = some 1))) ∧ (s.healthOf c).pass = some kind ∧ (s.healthOf c).todo =
      seg :: rest ∧ rest ≠ [] ∧ (s.healthOf c).retry = false) ∧
    (∃ (s : State), s.rst.ready = true ∧ s.integ.held ≠ []) ∧
    (∃ (s : State), s.rst.ready = true ∧ s.flash.checkpointAt + 3600000000000 ≤ s.time.up) := by
  refine ⟨⟨{ work with checks := [(0, { checks := [{ job := 0, cohort := 0, id := 3 }] })], time := { up := 40000 } }, 0, 3,
      { job := 0, cohort := 0, id := 3 }, ?_⟩,
    ⟨{ work with integ := { scanCore := some 0 }, health := [(0, { pass := some 0, todo := [1, 2] })] }, 0, 0, 1, [2], ?_⟩,
    ⟨{ work with integ := { held := [(default : SigRec)] } }, ?_⟩,
    ⟨{ work with time := { up := 3600000000000 } }, ?_⟩⟩
  all_goals and_intros
  all_goals decide +kernel

set_option maxRecDepth 100000 in
/-- What `Obligations.MaintenanceEventsComplete` assumes can be met, clause by clause. -/
theorem test_hyps_MaintenanceEventsComplete :
    (∃ (s : State) (c : Nat) (b : Bool), c < 24 ∧ s.rst.ready = true ∧ (s.act (actScan c b)).phase = .idle) ∧
    (∃ (s : State) (c : Nat), c < 24 ∧ s.rst.ready = true ∧ (s.act (actBist c)).phase = .idle) ∧
    (∃ (s : State), s.rst.ready = true ∧ (s.act actDredge).phase = .idle) ∧
    (∃ (s : State) (n : Nat), s.rst.ready = true ∧ (s.act actLedger).phase = .idle ∧ s.flash.pendingSince = some n) ∧
    (∃ (s : State), s.rst.ready = true ∧ (s.act actRemirror).phase = .idle ∧ s.pair.state = .unmirrored) ∧
    (∃ (s : State) (id : Nat), s.rst.ready = true ∧ (s.act id).phase = .pending ∧ s.blocked id = false ∧ (actKind id = 3 ∨ actKind id = 4 ∨
      actKind id = 5 ∨ actKind id = 7)) ∧
    (∃ (s : State) (k : Nat), k < 4 ∧ s.rst.ready = true ∧ (s.act (actRetrain k)).phase = .pending ∧ s.blocked (actRetrain k) = false ∧
      s.clearFor (actRetrain k) = true ∧ s.pair.state ≠ .solo) ∧
    (∃ (s : State) (id : Nat), s.rst.ready = true ∧ (s.act id).phase = .pending ∧ s.blocked id = false ∧ actHandover id = true ∧ s.clearFor
      id = false ∧ (s.act id).levelAt s.time.up ≠ 0 ∧ s.pair.state = .mirrored ∧ s.pair.handover = none) ∧
    (∃ (s : State) (id : Nat) (d : Nat), (s.act id).phase ≠ .idle ∧ (s.act id).level = 0 ∧ (s.act id).due = some d ∧ s.time.up < d ∧ 4 *
      (s.act id).release + 3 * (d - (s.act id).release) ≤ 4 * s.time.up) ∧
    (∃ (s : State) (id : Nat) (d : Nat), (s.act id).phase ≠ .idle ∧ (s.act id).level ≠ 2 ∧ (s.act id).due = some d ∧ d ≤ s.time.up) ∧
    (∃ (s : State) (id : Nat), (s.act id).phase ≠ .idle ∧ (s.act id).level = 2 ∧ (s.act id).repeatAt + 1000000000 ≤ s.time.up) ∧
    (∃ (s : State) (k : Nat), k < 4 ∧ (s.act (actRetrain k)).phase = .running ∧ s.clearFor (actRetrain k) = true) ∧
    (∃ (s : State) (c : Nat), Working s ∧ c < 24 ∧ (s.act (actRemap c)).phase = .running ∧ s.clearFor (actRemap c) = true) := by
  refine ⟨⟨work, 0, true, ?_⟩,
    ⟨work, 0, ?_⟩,
    ⟨work, ?_⟩,
    ⟨{ work with flash := { pendingSince := some 0 } }, 0, ?_⟩,
    ⟨{ work with pair := { state := .unmirrored } }, ?_⟩,
    ⟨{ work with mgmt := { acts := [(0x300, { phase := .pending })] } }, 0x300, ?_⟩,
    ⟨{ work with mgmt := { acts := [(actRetrain 0, { phase := .pending })] } }, 0, ?_⟩,
    ⟨{ busy (task .running) with pair := { state := .mirrored }, mgmt := { acts := [(0x180, { phase := .pending, due := some 0 })] } }, 0x180,
      ?_⟩,
    ⟨{ work with mgmt := { acts := [(0x300, { phase := .pending, due := some 100 })] }, time := { up := 75 } }, 0x300, 100, ?_⟩,
    ⟨{ work with mgmt := { acts := [(0x300, { phase := .pending, due := some 100 })] }, time := { up := 100 } }, 0x300, 100, ?_⟩,
    ⟨{ work with mgmt := { acts := [(0x300, { phase := .pending, level := 2 })] }, time := { up := 1000000000 } }, 0x300, ?_⟩,
    ⟨{ work with mgmt := { acts := [(actRetrain 0, { phase := .running })] } }, 0, ?_⟩,
    ⟨{ work with mgmt := { acts := [(actRemap 0, { phase := .running })] } }, 0, ?_⟩⟩
  all_goals and_intros
  all_goals decide +kernel

set_option maxRecDepth 100000 in
/-- What `Obligations.TelemetryAndCensusComplete` assumes can be met, clause by clause. -/
theorem test_hyps_TelemetryAndCensusComplete :
    (∃ (s : State) (s1 : State) (via : Via) (c : Cmd) (i : Item), Runs s via 0x0901 (fun _ => true) s1 c ∧ itemOf (c.p 0) = some i ∧
      (c.ownPart = none ∨ c.ownPart = i.owner)) ∧
    (∃ (s : State) (s1 : State) (via : Via) (c : Cmd) (i : Item), Runs s via 0x0901 (fun _ => true) s1 c ∧ itemOf (c.p 0) = some i ∧
      (c.ownPart = none ∨ c.ownPart = i.owner) ∧ i ≠ .power) ∧
    (∃ (s : State) (s1 : State) (via : Via) (c : Cmd), Runs s via 0x0902 (fun c => c.addr 0 != 0) s1 c ∧ c.p 2 &&& 0xFFF0 = 0 ∧ s1.time.now
      + 50000 + 2000 * (c.p 2 % 16) ≤ c.addr 0 ∧ c.addr 0 ≤ s1.time.now + 10000000000 ∧ s1.census.head.state ≠ .armed) ∧
    (∃ (s : State) (s1 : State) (via : Via) (c : Cmd), Runs s via 0x0902 (fun c => c.addr 0 == 0) s1 c ∧ c.p 2 &&& 0xFFF0 = 0 ∧
      s1.census.head.state = .armed) ∧
    (∃ (s : State) (s1 : State) (via : Via) (c : Cmd), Runs s via 0x0902 (fun c => c.addr 0 == 0) s1 c ∧ c.p 2 &&& 0xFFF0 = 0 ∧
      s1.census.head.state ≠ .armed) ∧
    (∃ (s : State) (l : Fin 36) (id : Nat), (s.link l).state = .up ∧ s.rst.ready = true ∧ s.census.head.state = .armed ∧ s.census.head.id ≠
      id) ∧
    (∃ (s : State) (l : Fin 36) (at_ : Nat) (id : Nat), (s.link l).state = .up ∧ s.rst.ready = true ∧ s.census.head.state ≠ .armed ∧
      (s.census.head.id ≠ id ∨ s.census.head.state = .idle) ∧ s.time.now + 1000 ≤ at_) ∧
    (∃ (s : State) (l : Fin 36) (at_ : Nat) (id : Nat), (s.link l).state = .up ∧ s.rst.ready = true ∧ s.census.head.state ≠ .armed ∧
      (s.census.head.id ≠ id ∨ s.census.head.state = .idle) ∧ at_ < s.time.now + 1000) ∧
    (∃ (s : State), s.census.head.state = .armed ∧ s.census.head.t ≤ s.time.now) ∧
    (∃ (s : State) (s1 : State) (via : Via) (c : Cmd), Runs s via 0x0903 (fun _ => true) s1 c ∧ c.ownPart = none ∧ c.p 0 % 64 = 0 ∧ c.p 1 %
      64 = 0 ∧ c.p 0 + c.p 1 ≤ 131072) ∧
    (∃ (s : State) (s1 : State) (via : Via) (c : Cmd) (p : Nat), Runs s via 0x0903 (fun _ => true) s1 c ∧ c.ownPart = some p ∧ c.p 0 % 64 =
      0 ∧ c.p 1 % 64 = 0 ∧ c.p 0 + c.p 1 ≤ 131072 ∧ ((0x1000 + 0x2000 * p ≤ c.p 0 ∧ c.p 0 + c.p 1 ≤ 0x3000 + 0x2000 * p) ∨ (c.p 0 = 0x19000
      + 64 * (p / 4) ∧ c.p 1 = 64))) ∧
    (∃ (s : State) (s1 : State) (via : Via) (c : Cmd) (p : Nat), Runs s via 0x0903 (fun _ => true) s1 c ∧ c.ownPart = some p ∧ c.p 0 % 64 =
      0 ∧ c.p 1 % 64 = 0 ∧ c.p 0 + c.p 1 ≤ 131072 ∧ c.p 0 < 0x1000) := by
  refine ⟨⟨given (work) (cmd 0x0901 [2]), work, .ring 0, (cmd 0x0901 [2]), .power, ?_⟩,
    ⟨given (work) (cmd 0x0901 [1]), work, .ring 0, (cmd 0x0901 [1]), .thermal, ?_⟩,
    ⟨given (work) (cmd 0x0902 [50000, 0, 0]), work, .ring 0, (cmd 0x0902 [50000, 0, 0]), ?_⟩,
    ⟨given ({ work with census := { head := { state := .armed } } }) (cmd 0x0902 [0]), { work with census := { head := { state := .armed } } },
      .ring 0, (cmd 0x0902 [0]), ?_⟩,
    ⟨given work (cmd 0x0902 [0, 0, 1]), work, .ring 0, cmd 0x0902 [0, 0, 1], ?_⟩,
    ⟨{ linked 0 with census := { head := { state := .armed, id := 1 } } }, 0, 2, ?_⟩,
    ⟨linked 0, 0, 1000, 1, ?_⟩,
    ⟨linked 0, 0, 999, 1, ?_⟩,
    ⟨{ work with census := { head := { state := .armed } } }, ?_⟩,
    ⟨given (work) (cmd 0x0903 [64, 131008]), work, .ring 0, (cmd 0x0903 [64, 131008]), ?_⟩,
    ⟨given work { cmd 0x0903 [0x1000, 64] 0 with origin := .ring 1 }, work, .ring 1, { cmd 0x0903 [0x1000, 64] 0 with origin := .ring 1 }, 0,
      ?_⟩,
    ⟨given (work) { (cmd 0x0903 [0xFC0, 64]) with origin := .ring 1 }, work, .ring 1, { (cmd 0x0903 [0xFC0, 64]) with origin := .ring 1 }, 0,
      ?_⟩⟩
  all_goals and_intros
  all_goals decide +kernel

set_option maxRecDepth 100000 in
/-- What `Obligations.TowpathAndJtagComplete` assumes can be met, clause by clause. -/
theorem test_hyps_TowpathAndJtagComplete :
    (∃ (s : State), s.towOpen = true ∧ s.mgmt.i3c = none) ∧
    (∃ (s : State) (a : Nat), s.towOpen = true ∧ s.mgmt.i3c = some a) ∧
    (∃ (s : State) (ep : Fin 2) (eid : Byte), s.towOpen = true ∧ s.pair.state ≠ .fenced ∧ (ep.val = 0 → s.mgmt.i3c ≠ none) ∧ 8 ≤ eid.toNat ∧
      eid.toNat ≤ 0xFE) ∧
    (∃ (s : State) (ep : Fin 2), s.towOpen = true ∧ s.pair.state ≠ .fenced ∧ (ep.val = 0 → s.mgmt.i3c ≠ none)) ∧
    (∃ (s : State) (data : List Byte), s.towOpen = true ∧ s.pair.state ≠ .fenced ∧ data ≠ [] ∧ data.length ≤ 1024) ∧
    (∃ (s : State), bitAt s.flash.sealFuses 1 = false ∧ s.rst.porLow = false) ∧
    (∃ (s : State), bitAt s.flash.sealFuses 1 = true) := by
  refine ⟨⟨work, ?_⟩,
    ⟨{ work with mgmt := { i3c := some 8 } }, 8, ?_⟩,
    ⟨work, 1, 8, ?_⟩,
    ⟨work, 1, ?_⟩,
    ⟨work, [1], ?_⟩,
    ⟨work, ?_⟩,
    ⟨{ work with flash := { sealFuses := 2 } }, ?_⟩⟩
  all_goals and_intros
  all_goals decide +kernel


/-! ## Ill-formed commands: one for each check of WellFormed.lean -/

set_option maxRecDepth 100000 in
theorem test_ill_formed_host :
    [Instr.bringupPhaseEnd { failedSites := [28] }, .bringupPhaseEnd { failedRows := [(28, 0, 0)] }, .bringupPhaseEnd { failedRows := [(0, 64, 0)] },
      .bringupPhaseEnd { hbmTemps := [0, 0, 0, 0, 0] }, .bringupPhaseEnd { patternOk := [true, true, true, true, true] },
      .bringupPhaseEnd { trainOk := [true, true, true, true, true] }, .tempSample [25] 0, .tempSample (List.replicate 37 25) 0,
      .tempSample (List.replicate 32 25) 65536, .vfEnable 13 true, .registerWrite 0 1 0 4 ⟨0, []⟩, .registerWrite 0 0 65536 4 ⟨0, []⟩,
      .registerWrite 0 0 0 2 ⟨0, []⟩,
      .registerWrite 0 0 0 4 ⟨0, [{ words := [], payload := [] }]⟩, .sqTailWrite 0 0 [{ words := [], payload := [] }], .intakeRead 0 { entry0 with seq := 65536 },
      .intakeRead 0 { entry0 with valid := 2 ^ 32 }, .resultRecordWrite 0 0 [(1024, [])], .bar4Access 0 none 4097,
      .devQuery (.tow 0 { header := [], payload := [] }), .ledgerWrite (.ring 0) (List.replicate 65537 0),
      .flashHealthRawRead (.ring 0) [0] true, .mctpControlMessage 0 [0, 0x80], .mctpDataToKnarum 0 0 0 [],
      .descriptorEnqueue 0 0 [1], .configRequest 0 false 4096 0, .configRequest 0 false 2 0].all (fun i => !i.wellFormed) = true := by
  decide +kernel

set_option maxRecDepth 100000 in
theorem test_ill_formed_core_and_links :
    [Instr.dmHbmRead 0 [96 * 2 ^ 30], .maintenanceCycle 0 [(65, 0)], .commandCommit 0 ⟨0, [(0, 1024)]⟩, .ccInstruction ⟨0, [(65, 0)]⟩, .maintenanceCycle 0 [(0, 1024)], .rowMapOut 0 0 1024,
      .spadUe 0 0 1024 none, .runMessage 0 { dataRun 1 with vc := 4 }, .runMessage 0 { dataRun 1 with srcChip := 2048 },
      .runMessage 0 { dataRun 1 with destChip := 2048 }, .runMessage 0 { dataRun 1 with srcCore := 32 },
      .runMessage 0 { dataRun 1 with cohort := 64 }, .runMessage 0 { dataRun 1 with chunk := 65536 },
      .runMessage 0 { dataRun 1 with epoch := 65536 }, .bargeReceive 0 0 0 [0] default, .bargeReceive 0 0 0 (List.replicate 4160 0) default,
      .commitMessage 0 (.transfer 4 0 1 none), .commitMessage 0 (.transfer 0 0 0 none), .commitMessage 0 (.mirror 65536 0 0 []),
      .commitMessage 0 (.mirror 0 64 0 []), .commitMessage 0 (.mirror 0 0 65536 []),
      .commitMessage 0 (.transfer 0 0 1 (some { core := 24, lock := 0, kind := 1, amount := 1 })),
      .signalMessage 0 0 2048 { core := 0, lock := 0, kind := 1, amount := 1 }, .signalMessage 0 0 0 { core := 0, lock := 256, kind := 1, amount := 1 },
      .signalMessage 0 0 0 { core := 0, lock := 0, kind := 3, amount := 1 }, .signalMessage 0 0 0 { core := 0, lock := 0, kind := 1, amount := 0 },
      .signalMessage 0 0 0 { core := 0, lock := 0, kind := 1, amount := 65 }, .chunkAck 0 2048 0 0 0, .chunkAck 0 0 2048 0 0,
      .chunkAck 0 0 0 64 0, .chunkAck 0 0 0 0 65536, .retarget 0 0 2048 0, .xferFail 0 0 0 256, .relayAck 0 65536 0 0, .mirrorAck 0 0 64 0,
      .standDown 0 0 256, .retract 0 0 64 0 0 0 0, .checkToken 0 0 0 0 0 5 0, .heartbeat 0 8 0 0 0 0, .heartbeat 0 0 0 2048 0 0,
      .witnessPing 0 2 0 0 0 0 0, .witnessEcho 0 0 8 0 0 0 0 0, .digestExchange 0 0 [] 0].all (fun i => !i.wellFormed) = true := by
  decide +kernel

set_option maxRecDepth 100000 in
theorem test_ill_formed_upkeep :
    [Instr.linkTrainingStep 0 { lanes := 16, peerChip := 0, peerPort := 0, peerDigest := 0, peerOk := true, delay := 0 },
      .linkTrainingStep 0 { lanes := 0, peerChip := 2048, peerPort := 0, peerDigest := 0, peerOk := true, delay := 0 },
      .linkTrainingStep 0 { lanes := 0, peerChip := 0, peerPort := 36, peerDigest := 0, peerOk := true, delay := 0 },
      .checkTimerExpiry 0 256, .hbmUe (96 * 2 ^ 30) none, .fullLoadInterval [] [], .digestSegmentDone 0 65536 0,
      .censusForward 0 (2 ^ 64) 0 0, .censusForward 0 0 65536 0, .censusForward 0 0 0 15, .maintRelease 0xFF, .maintGrant 0xB00,
      .maintUrgent 0, .maintForced 0xFF, .maintForcedRepeat 0xB00, .maintDone 0,
      .dredgeRead { block := 16384, page := 0, bits := 0, retry := false, uncorrectable := false, last := false },
      .dredgeRead { block := 0, page := 256, bits := 0, retry := false, uncorrectable := false, last := false },
      .flashOpFail 22528 true].all (fun i => !i.wellFormed) = true := by
  decide +kernel

/-! ## The spec's worked numbers -/

/-- The example after R19: the core at site 2.3 moves to the spare column 6. -/
theorem test_remap_example : remapWord 0x001AC688 3 = 0x000ECC88 := by decide +kernel

/-- The example of 00_scope.md and R514: handle 0x0003_1C85 is pair 3, index 114, generation 5. -/
theorem test_handle_example : handleOf 3 114 5 = 0x00031C85 ∧ handleIndex 0x00031C85 = 114 := by decide +kernel

/-- The example after R57: word 5 of row 37 lies in bank 42, or 15 with HASH 0b01, of bank row 1,189. -/
theorem test_bank_example :
    physWord { base := 0x200, bound := 0x300 } 10565 37 = (1189 * 64 + 42) * 32 ∧
    physWord { base := 0x200, bound := 0x300, hash := 1 } 10565 37 = (1189 * 64 + 15) * 32 := by decide +kernel

/-- The example after R102: an FP8-E4M3 code 0x5C with scale byte 0x7A, below S_max 0x7C, expands to 0x1CC0, and X is 5. -/
theorem test_expansion_example :
    ((sliceNarrow 3 (List.replicate 33 0x5C) [0x7C, 0x7A] []).hi.map PeOp.code).getD 32 0 = 0x1CC0 ∧
    (sliceNarrow 3 (List.replicate 33 0x5C) [0x7C, 0x7A] []).x = 5 := by decide +kernel

/-- The FP4-E2M1 table after R147: 0.25, 0.75, 1.25, 2.5, 3.5, 5, -5.2 and 6.4. -/
theorem test_fp4_rounding_table :
    [0x3E800000, 0x3F400000, 0x3FA00000, 0x40200000, 0x40600000, 0x40A00000, 0xC0A66666, 0x40CCCCCD].map
      (fun (w : Word) => (narrow 6 (some (fmtMax 6, 127)) (ofF32 w)).1) = [0, 2, 2, 4, 6, 6, 0xF, 7] ∧
    (narrow 6 (some (fmtMax 6, 127)) (ofF32 0x40CCCCCD)).2.1 = true := by decide +kernel

/-- The FP8-E4M3 table after R147: σ 0.0042 gives the scale byte 0x78, and 0.93, 0.53125, 2.3, -0.0001, +∞ and NaN narrow as listed. -/
theorem test_fp8_narrowing_table :
    groupScale [0x3B89A027] = 0x78 ∧
    [0x3F6E147B, 0x3F080000, 0x40133333, 0xB8D1B717, 0x7F800000, 0x7FC00000].map
      (fun (w : Word) => narrow 3 (some (ofF32 (f32mul 0x3B89A027 (toF32 (fmtMax 3))), 0x78)) (ofF32 w)) =
    [(0x6F, false, false), (0x68, false, false), (0x77, true, false), (0x87, false, false), (0x77, true, true), (0x7F, false, true)] := by
  decide +kernel

/-- The steered channels after R168: 31 clips of 96,000 rowsteps raise the offset, 23 do not. -/
theorem test_steering_example : steerChannel {} 96000 31 2 = 3 ∧ steerChannel {} 96000 23 2 = 2 := by decide +kernel

/-- The example after R277: FILL 2 and DRAIN 0xFFFF_FFFE are an occupancy of 4, and a DRAIN of 1 leaves 3. -/
theorem test_lock_wrap_example :
    ({ depth := 4, fill := 2, drain := 0xFFFFFFFE } : Lock).occ = 4 ∧
    (({ depth := 4, fill := 2, drain := 0xFFFFFFFE } : Lock).add 0 1).drain = 0xFFFFFFFF ∧
    (({ depth := 4, fill := 2, drain := 0xFFFFFFFE } : Lock).add 0 1).occ = 3 := by decide +kernel

/-- Table T3 of the example after R368. -/
def table3 : List Byte := (List.range 256).map (fun v => if v = 0 then 1 else if v = 0x78 then 2 else if v = 0x79 ∨ v = 0x7A then 3 else 0)

/-- The example after R368: 0x56 0x70 decode to 0x00 0x78 0x78 0x79 0x00 0x7A. -/
theorem test_sluice_example :
    tableValid table3 = true ∧
    decodeCodes table3 (codeOrder table3) 6 (bitStream [0x56, 0x70]) = some [0x00, 0x78, 0x78, 0x79, 0x00, 0x7A] := by decide +kernel

/-- The wharves of 21_worked_deployment.md (16 kHz, 32 slots of 16 bits, AREFCLK0 at 12.288 MHz), and W8 of the second example of
13_wharves.md (44.1 kHz word-select from AREFCLK1 at 24.576 MHz): both are legal; another divider is not. -/
theorem test_wharf_config_examples :
    ({ work with refs := [(0, { nom := 1 })] } : State).wharfBad (cmd 0x0501 [0, 0x211FF088, 0x0C, 0, 0xFFFFFFFF, 0]) = none ∧
    ({ work with refs := [(0, { nom := 1 })] } : State).wharfBad (cmd 0x0501 [0, 0x211FF088, 0x0D, 0, 0xFFFFFFFF, 0]) = some (St.badParam, 10) ∧
    ({ work with refs := [(1, { nom := 3 })] } : State).wharfBad (cmd 0x0501 [8, 0x0B800008, 0x40000045, 0xA8ECD8, 3, 3]) = none := by
  decide +kernel

/-- The record of the example after R604: some of its pairs. -/
theorem test_signature_record_example :
    cborUint 0 ++ cborUint 4711 = [0x00, 0x19, 0x12, 0x67] ∧ cborUint 6 ++ cborUint 0xD0 = [0x06, 0x18, 0xD0] ∧
    cborUint 10 ++ cborArray [0x6B1E0C44, 0x2F97A5D0, 0x2F97A5D0] =
      [0x0A, 0x83, 0x1A, 0x6B, 0x1E, 0x0C, 0x44, 0x1A, 0x2F, 0x97, 0xA5, 0xD0, 0x1A, 0x2F, 0x97, 0xA5, 0xD0] ∧
    cborUint 15 ++ cborArray [0, 1000] = [0x0F, 0x82, 0x00, 0x19, 0x03, 0xE8] ∧ cborHead 5 17 = [0xB1] := by decide +kernel

/-- The example after R631: bank A's SEQ 0 is newer than bank B's 0xFFFF_FFFF, whose next slot is torn. -/
theorem test_ledger_selection_example :
    ((selectImage [some (0xFFFFFFFE, {}), some (0, {})] [some (0xFFFFFFFF, {}), none]).1,
      (selectImage [some (0xFFFFFFFE, {}), some (0, {})] [some (0xFFFFFFFF, {}), none]).2.1) = (some 0, 0) := by decide +kernel

set_option maxRecDepth 100000 in
/-- The census of the example after R317: 55 µs is too soon for a radius of 3, with detail 56; 60 µs is not. -/
theorem test_census_example :
    exec (.censusArm (.ring 0)) (given work (cmd 0x0902 [55000, 0, 0x00410003])) = .next (work.reply (cmd 0x0902 [55000, 0, 0x00410003]) St.badParam 56 []) ∧
    (after (exec (.censusArm (.ring 0)) (given work (cmd 0x0902 [60000, 0, 0x00410003])))).census.head.id = 0x41 := ⟨by rfl, by decide +kernel⟩

set_option maxRecDepth 100000 in
/-- The weirs of the example after R347: with 112 each in partitions 6 and 7, a write RATE of 20 in partition 0 is refused. -/
theorem test_weir_example :
    let w : Part := { weirsSet := 1, weirs := [(0, { rate := 112 })] }
    let s : State := { work with parts := [(6, w), (7, w)] }
    exec (.partSetWeir (.ring 0)) (given s (cmd 0x0202 [0x01000014, 16] 0)) = .next (s.reply (cmd 0x0202 [0x01000014, 16] 0) St.badParam 8 []) ∧
    s.weirSums 0 ((s.part 0).setWeir 1 0 16 16 0) 1 0 = true := ⟨by rfl, by decide +kernel⟩

/-- The packet of the example at the end of 15_command_protocol.md: STREAM_PAUSE of stream 0x0003_1C85 with SEQ 23. -/
def pausePacket : List Word := [0x03020000, 0x17, 4, 0, 0xB22, 0, 0]

/-- That packet through VF1: it is accepted, and a wrong CRC is not (R534, R540). -/
theorem test_pause_packet_example :
    let st : Stream := { flow with adm := { flow.adm with handle := 0x00031C85 } }
    let s : State := { busy (task .running) with streams := [(114, some st)], numVfs := 12, vfEnable := true }
    let h := pausePacket ++ [crc32c (wordsToBytes (pausePacket ++ [0x00031C85]))]
    ((s.acceptPacket (.ring 1) h [0x00031C85] 64).accepted.map (fun c => (c.opcode, c.seq, c.p 0)) = [(0x0302, 23, 0x00031C85)]) ∧
    (s.acceptPacket (.ring 1) (pausePacket ++ [0]) [0x00031C85] 64).accepted = [] := by decide +kernel

set_option maxRecDepth 100000 in
/-- The exactly rounded results of R182 at √2, log₂ 3, 1/3, 1/√2, the sigmoid at 1, tanh at 1/2 and GELU at ±1 (double precision
values, rounded), and RCP(1) = 1, on which an attention of one position rests (R258). -/
theorem test_exact_functions :
    exactExp2 false 1 (-1) = 0x3FB504F3 ∧ exactLog2 3 0 = 0x3FCAE00D ∧ exactRcp false 3 0 = 0x3EAAAAAB ∧ exactRsqrt 2 0 = 0x3F3504F3 ∧
    exactSigmoid false 1 0 = 0x3F3B26A8 ∧ exactTanh false 1 (-1) = 0x3EEC9A9F ∧ exactGelu false 1 0 = 0x3F57625F ∧
    exactGelu true 1 0 = 0xBE227686 ∧ exactRcp false 1 0 = 0x3F800000 := by
  decide +kernel

set_option maxRecDepth 100000 in
/-- The digest of "abc" (the example of FIPS 180-4). -/
theorem test_sha_digest :
    beWords (sha256 [0x61, 0x62, 0x63]) =
      [0xBA7816BF, 0x8F01CFEA, 0x414140DE, 0x5DAE2223, 0xB00361A3, 0x96177A9C, 0xB410FF61, 0xF20015AD] := by
  decide +kernel

/-- R534 with the check value of CRC-32C. -/
theorem test_crc : crc32c [0x31, 0x32, 0x33, 0x34, 0x35, 0x36, 0x37, 0x38, 0x39] = 0xE3069283 := by decide +kernel

/-- R536 and R738: JOB_START before the weirs are set is answered WRONG_STATE, detail WEIRS_SET, with and without CHECK_ONLY. -/
theorem test_check_only_same_refusal :
    let c : Cmd := { cmd 0x0204 [] 0 with checkOnly := true }
    let s : State := { work with jobs := [(0, { state := .loaded })], parts := [(0, { weirsSet := 5 })] }
    ((after (exec (.jobStart (.ring 0)) (given s c))).fn 0 = (s.reply c St.wrongState 5 []).fn 0) ∧
    ((after (exec (.jobStart (.ring 0)) (given s { c with checkOnly := false }))).fn 0 =
      (s.reply { c with checkOnly := false } St.wrongState 5 []).fn 0) := by decide +kernel

end Sys2Proof.Tests
end

section
/-! What a kill leaves of the control cores and the jobs (R328, R735). Every operation that a kill is made of keeps the pair
`State.control`; the kill itself only frees its job. -/

namespace Sys2Proof.Machine

/-- An operation that keeps `g` at each element keeps it over the list. -/
theorem foldl_keeps {σ α β : Type} (g : σ → β) (f : σ → α → σ) (h : ∀ s a, g (f s a) = g s) (l : List α) (s : σ) :
    g (l.foldl f s) = g s := by
  induction l generalizing s with
  | nil => rfl
  | cons a l ih => rw [List.foldl_cons, ih, h]

/-! ## The control core's registers within a core -/

@[simp] theorem CoreSt.cc_setQueue (k : CoreSt) (q : Nat) (es : List QEntry) : (k.setQueue q es).cc = k.cc := rfl
@[simp] theorem CoreSt.cc_noteIdle (k k' : CoreSt) (up : Nat) : (k.noteIdle k' up).cc = k'.cc := by
  unfold CoreSt.noteIdle
  split <;> rfl
@[simp] theorem CoreSt.cc_keep (k : CoreSt) (up : Nat) (f : QEntry → Bool) : (k.keep up f).cc = k.cc := by
  rw [CoreSt.keep, CoreSt.cc_noteIdle]
  exact foldl_keeps CoreSt.cc _ (fun _ _ => CoreSt.cc_setQueue ..) _ _
@[simp] theorem CoreSt.cc_endWaits (k : CoreSt) (j up : Nat) : (k.endWaits j up).cc = k.cc := by
  unfold CoreSt.endWaits
  split <;> split <;> rfl
@[simp] theorem CoreSt.cc_takeBack (k : CoreSt) (f : Send → Bool) : (k.takeBack f).cc = k.cc := by
  refine foldl_keeps CoreSt.cc _ (fun k x => ?_) _ _
  split <;> rfl
@[simp] theorem CoreSt.cc_loseBytes (k : CoreSt) (draw : Nat) (dest : List Nat) : (k.loseBytes draw dest).cc = k.cc := rfl
@[simp] theorem CoreSt.cc_killRunning (draw : Nat) (k : CoreSt) (r : Running) : (killRunning draw k r).cc = k.cc := by
  unfold killRunning
  split <;> rfl
@[simp] theorem CoreSt.cc_stop (k : CoreSt) (draw up : Nat) (f : Running → Bool) : (k.stop draw up f).cc = k.cc := by
  have hrun (c : CoreSt) (l : List Running) : (l.foldl (killRunning draw) c).cc = c.cc :=
    foldl_keeps CoreSt.cc _ (CoreSt.cc_killRunning draw) l c
  unfold CoreSt.stop
  split <;> exact hrun _ _
@[simp] theorem CoreSt.cc_killJob (k : CoreSt) (j draw up : Nat) : (k.killJob j draw up).cc = k.cc := by
  simp [CoreSt.killJob]
@[simp] theorem CoreSt.cc_discard (k : CoreSt) (f : Nat → Nat → Nat → Bool) : (k.discard f).cc = k.cc := rfl
@[simp] theorem CoreSt.cc_freeJob (k : CoreSt) (j : Nat) : (k.freeJob j).cc = k.cc := rfl
@[simp] theorem CoreSt.cc_stallHeads (k : CoreSt) (d : Nat) : (k.stallHeads d).cc = k.cc := rfl

/-! ## The control cores and the jobs of a state -/

/-- The control core of every core, and the jobs. -/
def State.control (s : State) : (Nat → Cc) × Table Job := (fun n => (s.core n).cc, s.jobs)

theorem State.cc_eq_control (s : State) (n : Nat) : (s.core n).cc = s.control.1 n := rfl
theorem State.jobs_eq_control (s : State) : s.jobs = s.control.2 := rfl

theorem State.control_congr {s t : State} (hcores : t.cores = s.cores) (hjobs : t.jobs = s.jobs) : t.control = s.control := by
  simp only [State.control, State.core, hcores, hjobs]

theorem State.control_each {α : Type} {f : State → α → State} (h : ∀ s a, (f s a).control = s.control) (s : State) (l : List α) :
    (s.each l f).control = s.control :=
  foldl_keeps State.control f h l s

theorem State.control_modCore {f : CoreSt → CoreSt} (h : ∀ k, (f k).cc = k.cc) (s : State) (n : Nat) :
    (s.modCore n f).control = s.control := by
  refine Prod.ext (funext fun i => ?_) rfl
  by_cases hi : i = n <;> simp [State.control, hi, h]

theorem State.control_each_modCore {f : State → Nat → CoreSt → CoreSt} (h : ∀ s c k, (f s c k).cc = k.cc) (s : State)
    (cs : List Nat) : (s.each cs (fun s c => s.modCore c (f s c))).control = s.control :=
  State.control_each (fun s c => State.control_modCore (h s c) s c) s cs

@[simp] theorem State.control_emit (s : State) (o : Out) : (s.emit o).control = s.control := rfl
@[simp] theorem State.control_modPart (s : State) (p : Nat) (f : Part → Part) : (s.modPart p f).control = s.control := rfl
@[simp] theorem State.control_modReqs (s : State) (p : Nat) (f : List BargeReq → List BargeReq) :
    (s.modReqs p f).control = s.control := rfl
@[simp] theorem State.control_modCheck (s : State) (p : Nat) (f : PartCheck → PartCheck) : (s.modCheck p f).control = s.control := rfl
@[simp] theorem State.control_modFn (s : State) (n : Nat) (f : FnBlock → FnBlock) : (s.modFn n f).control = s.control := rfl
@[simp] theorem State.control_setLink (s : State) (l : Nat) (v : LinkSt) : (s.setLink l v).control = s.control := rfl
@[simp] theorem State.control_modLink (s : State) (l : Nat) (f : LinkSt → LinkSt) : (s.modLink l f).control = s.control := rfl
@[simp] theorem State.control_modStream (s : State) (i : Nat) (f : Stream → Stream) : (s.modStream i f).control = s.control := rfl
@[simp] theorem State.control_modHealth (s : State) (c : Nat) (f : Health → Health) : (s.modHealth c f).control = s.control := rfl
@[simp] theorem State.control_freeing (s : State) (l : List Nat) : ({ s with freeing := l } : State).control = s.control := rfl
theorem State.control_pair (s : State) (p : Pair) : ({ s with pair := p } : State).control = s.control := rfl
theorem State.control_ranges_integ_wharves (s : State) (rs : List WeightRange) (i : Integ) (ws : Table Wharf) :
    ({ s with ranges := rs, integ := i, wharves := ws } : State).control = s.control := rfl
@[simp] theorem State.control_draw (s : State) : s.draw.2.control = s.control := rfl

@[simp] theorem State.control_setJob (s : State) (j : Nat) (v : Job) :
    (s.setJob j v).control = (s.control.1, Table.put {} s.control.2 j v) := rfl

/-! ## Sending on links -/

@[simp] theorem State.control_sendFlits (s : State) (l : Nat) (background : Bool) (fs : List Flit) :
    (s.sendFlits l background fs).control = s.control := rfl

@[simp] theorem State.control_sendControl (s : State) (l : Nat) (ms : List LinkMsg) : (s.sendControl l ms).control = s.control := by
  rw [State.sendControl, State.control_sendFlits, State.control_each (fun _ _ => State.control_emit _ _), State.control_draw]

@[simp] theorem State.control_pump (s : State) (l n : Nat) : (s.pump l n).control = s.control := by
  induction n generalizing s with
  | zero => rfl
  | succ n ih =>
    rw [State.pump]
    split
    · rfl
    · split
      · rfl
      · split <;> simp [ih]
      · simp [ih]

@[simp] theorem State.control_fillIdle (s : State) (l : Nat) : (s.fillIdle l).control = s.control := by
  simp only [State.fillIdle]
  split <;> rfl

@[simp] theorem State.control_drainLink (s : State) (l : Nat) : (s.drainLink l).control = s.control := by
  simp [State.drainLink, State.noteWait]

@[simp] theorem State.control_sendOn (s : State) (l : Nat) (ms : List LinkMsg) : (s.sendOn l ms).control = s.control := by
  unfold State.sendOn
  split <;> simp

@[simp] theorem State.control_sendTwin (s : State) (ms : List LinkMsg) : (s.sendTwin ms).control = s.control := by
  unfold State.sendTwin
  split <;> simp

@[simp] theorem State.control_sendTo (s : State) (dest : Nat) (ms : List LinkMsg) : (s.sendTo dest ms).control = s.control := by
  unfold State.sendTo
  split
  · simp
  · split <;> simp

/-! ## Events, signature records and replies -/

@[simp] theorem State.control_msix (s : State) (fn vector : Nat) : (s.msix fn vector).control = s.control := by
  unfold State.msix
  split
  · rfl
  · split <;> rfl

@[simp] theorem State.control_towpathCopy (s : State) (ws : List Word) : (s.towpathCopy ws).control = s.control := by
  unfold State.towpathCopy
  split <;> rfl

@[simp] theorem State.control_deliver (s : State) (code : Nat) (fns : List Nat) (ws : List Word) :
    (s.deliver code fns ws).control = s.control := by
  have hpost : (s.each fns (fun s f => s.modFn f (fun b => b.post { isEvent := true, words := ws }))).control = s.control :=
    State.control_each (fun _ _ => State.control_modFn _ _ _) s fns
  unfold State.deliver
  split
  · rfl
  · split <;> split <;> simp [hpost]

@[simp] theorem State.control_event (s : State) (code : Nat) (part job : Option Nat) (status detail : Nat) (evs : List Word) :
    (s.event code part job status detail evs).control = s.control :=
  State.control_deliver ..

@[simp] theorem State.control_markHealth (s : State) (c bit state : Nat) : (s.markHealth c bit state).control = s.control := rfl

@[simp] theorem State.control_noteCrc (s : State) (core : Option Nat) : (s.noteCrc core).control = s.control := by
  simp only [State.noteCrc]
  split
  · rfl
  · split <;> simp

@[simp] theorem State.control_signature (s : State) (cls cause : Nat) (core : Option Nat) (unitNo : Nat) (detail : List Nat)
    (job : Option Nat) (chunk : Nat × Nat) : (s.signature cls cause core unitNo detail job chunk).control = s.control := rfl

@[simp] theorem State.control_faultEvent (s : State) (cause : Nat) (part job : Option Nat) (detail : Nat) (a : FaultAt) :
    (s.faultEvent cause part job detail a).control = s.control := by
  unfold State.faultEvent
  split <;> split <;> simp

@[simp] theorem State.control_reply (s : State) (c : Cmd) (status detail : Nat) (res : List Word) :
    (s.reply c status detail res).control = s.control := by
  unfold State.reply
  split <;> split <;> rfl

@[simp] theorem State.control_answerWaits (s : State) (sel : Wait → Bool) (ans : Wait → Nat × Nat × List Word) :
    (s.answerWaits sel ans).control = s.control :=
  State.control_each (fun _ _ => State.control_reply ..) _ _

/-! ## Streams and the stand-down -/

@[simp] theorem State.control_dropStream (s : State) (i : Nat) : (s.dropStream i).control = s.control := rfl

@[simp] theorem State.control_record (s : State) (i status : Nat) (k : Stepping) (payload : List Byte) :
    (s.record i status k payload).control = s.control := by
  unfold State.record
  split
  · rfl
  · split
    · rfl
    · split <;> simp

@[simp] theorem State.control_fireVectors (s : State) (is : List Nat) : (s.fireVectors is).control = s.control :=
  State.control_each (fun _ _ => State.control_msix ..) _ _

@[simp] theorem State.control_loseStream (s : State) (i : Nat) : (s.loseStream i).control = s.control := by
  unfold State.loseStream
  split
  · rfl
  · split <;> simp

@[simp] theorem State.control_endStreams (s : State) (j : Nat) (recovers silent : Bool) :
    (s.endStreams j recovers silent).control = s.control := by
  unfold State.endStreams
  split
  · rfl
  · refine State.control_each (fun s i => ?_) _ _
    split <;> simp

@[simp] theorem State.control_finishStandDown (s : State) : s.finishStandDown.control = s.control := by
  unfold State.finishStandDown
  split
  · rfl
  · split
    · rfl
    · refine (State.control_congr rfl rfl).trans ((State.control_answerWaits ..).trans ?_)
      exact State.control_each (fun _ _ => State.control_sendOn ..) _ _

@[simp] theorem State.control_standDown (s : State) (cause p : Nat) : (s.standDown cause p).control = s.control := by
  unfold State.standDown
  split
  · exact State.control_finishStandDown _
  · rfl

/-! ## The parts of a kill -/

@[simp] theorem State.control_retract (s : State) (c j reason depth : Nat) : (s.retract c j reason depth).control = s.control := by
  have hsend (s : State) (ks : List (Nat × Nat × Nat)) :
      (s.each ks (fun s k => State.sendTo { s with pair := { s.pair with retractTx := satAdd s.pair.retractTx 1 } } k.1
        [.retract k.1 k.2.1 k.2.2 s.time.chip reason depth])).control = s.control :=
    State.control_each (fun s _ => (State.control_sendTo ..).trans (State.control_pair s _)) s ks
  simp only [State.retract, hsend]
  exact State.control_modCore (by simp) s c

@[simp] theorem State.control_retractJob (s : State) (j reason depth : Nat) : (s.retractJob j reason depth).control = s.control :=
  State.control_each (fun _ _ => State.control_retract ..) s _

@[simp] theorem State.control_dropRemote (s : State) (c draw : Nat) (f : Running → Bool) :
    (s.dropRemote c draw f).control = s.control := by
  rw [State.dropRemote, State.control_each (fun _ _ => State.control_modCore (by simp) ..), State.control_modCore (by simp),
    State.control_modReqs]

@[simp] theorem State.control_freePounds (s : State) (j : Nat) : (s.freePounds j).control = s.control := by
  unfold State.freePounds
  split
  · rw [State.control_freeing, State.control_each_modCore (by simp)]
  · rw [State.control_freeing]

@[simp] theorem State.control_freeChecks (s : State) (j : Nat) (f : Nat → Bool) : (s.freeChecks j f).control = s.control := by
  rw [State.freeChecks, State.control_each_modCore (by simp), State.control_modCheck]

/-- Releasing a job takes it off the table of jobs, and keeps every other job and every control core. -/
@[simp] theorem State.control_releaseJob (s : State) (j : Nat) :
    (s.releaseJob j).control = (s.control.1, Table.put {} s.control.2 j {}) := by
  delta State.releaseJob
  extract_lets p d sd s0 s1 s2 s3 integ s4
  have hdrop : sd.control = s.control := State.control_each (fun _ _ => State.control_dropRemote ..) _ _
  have hdiscard : s0.control = sd.control := State.control_each_modCore (by simp) _ _
  have hkill : s1.control = s0.control :=
    (State.control_freePounds ..).trans (State.control_each_modCore (by simp) _ _)
  have hchecks : s2.control = s1.control := State.control_freeChecks ..
  have hreqs : s3.control = s2.control := (State.control_modPart ..).trans (State.control_modReqs ..)
  have hrest : s4.control = s3.control := State.control_ranges_integ_wharves s3 _ _ _
  rw [State.control_setJob, hrest, hreqs, hchecks, hkill, hdiscard, hdrop]

@[simp] theorem State.control_endStall (s : State) (p : Nat) (w : Switch) : (s.endStall p w).control = s.control := by
  unfold State.endStall
  split
  · rfl
  · rw [State.control_modPart, State.control_each_modCore (by simp)]

@[simp] theorem State.control_switchAfterKill (s : State) (j cause : Nat) : (s.switchAfterKill j cause).control = s.control := by
  simp only [State.switchAfterKill]
  split
  · rfl
  · split
    · rfl
    · split <;> simp

/-- A kill takes its job off the table of jobs unless it is free, and keeps every other job and every control core (R328). -/
theorem State.control_killJob (s : State) (j : Nat) (cause : Option Nat) (detail : Nat) (a : FaultAt) (silent : Bool) :
    (s.killJob j cause detail a silent).control =
      if (s.job j).state = .free then s.control else (s.control.1, Table.put {} s.control.2 j {}) := by
  delta State.killJob
  extract_lets st p counts s1 s2 s3 s4 s5 s6
  have hrelease : s3.control = (s.control.1, Table.put {} s.control.2 j {}) := by simp [s3, s2, s1]
  have hcount : s4.control = s3.control := by
    by_cases h : counts = true <;> simp [s4, h]
  have hswitch : s5.control = s4.control := State.control_switchAfterKill ..
  have hwaits : s6.control = s5.control := by
    by_cases h : silent = true
    · simp only [s6, h]; rfl
    · simp [s6, h]
  have hend : s6.control = (s.control.1, Table.put {} s.control.2 j {}) := by rw [hwaits, hswitch, hcount, hrelease]
  by_cases hfree : st = .free
  · rw [if_pos hfree, if_pos hfree]
  · rw [if_neg hfree, if_neg hfree, ← hend]
    cases cause with
    | none => rfl
    | some k =>
      dsimp only
      split <;> simp

/-! ## Kills -/

/-- A kill keeps every control core. -/
theorem State.cc_killJob (s : State) (j : Nat) (cause : Option Nat) (detail : Nat) (a : FaultAt) (silent : Bool) (n : Nat) :
    ((s.killJob j cause detail a silent).core n).cc = (s.core n).cc := by
  rw [State.cc_eq_control, State.control_killJob]
  split <;> rfl

/-- After a kill its job is free, and every other job is as before. -/
theorem State.job_killJob (s : State) (j : Nat) (cause : Option Nat) (detail : Nat) (a : FaultAt) (silent : Bool) (i : Nat) :
    ((s.killJob j cause detail a silent).job i).state = if i = j then .free else (s.job i).state := by
  rw [State.job, State.jobs_eq_control, State.control_killJob]
  by_cases hfree : (s.job j).state = .free
  · by_cases hi : i = j
    · rw [if_pos hfree, if_pos hi, hi]; exact hfree
    · rw [if_pos hfree, if_neg hi]; rfl
  · rw [if_neg hfree, Table.look_put]
    split <;> rfl

/-- A partition's kill keeps every control core (R735). -/
theorem State.cc_killPartition (s : State) (p cause detail : Nat) (a : FaultAt) (n : Nat) :
    ((s.killPartition p cause detail a).core n).cc = (s.core n).cc :=
  foldl_keeps (fun s => (s.core n).cc) _ (fun s j => s.cc_killJob j (some cause) detail a false n) _ s

/-- Kills of jobs one after the other leave those free, and the others as before. -/
theorem State.job_each_killJob (s : State) (l : List Nat) (cause : Option Nat) (detail : Nat) (a : FaultAt) (silent : Bool) (i : Nat) :
    ((s.each l (fun s j => s.killJob j cause detail a silent)).job i).state = if i ∈ l then .free else (s.job i).state := by
  induction l generalizing s with
  | nil => rfl
  | cons j l ih =>
    rw [State.each, List.foldl_cons, ← State.each, ih, State.job_killJob]
    by_cases hl : i ∈ l <;> simp [hl]

/-- A partition's kill leaves none of its jobs (R735). -/
theorem State.job_killPartition (s : State) (p cause detail : Nat) (a : FaultAt) {j : Nat} (hj : j ∈ jobsOf p) :
    ((s.killPartition p cause detail a).job j).state = .free := by
  rw [State.killPartition, State.job_each_killJob, if_pos hj]

end Sys2Proof.Machine
end

section
/-! The control core's windows as they are used (R44, R45, R198, R199, R594): an equation for each case of the store to a window, of
the read of the FIFO head and of the scan gate's load, and O53 from them. -/

namespace Sys2Proof.Machine

/-! ## Registers and queues -/

@[simp] theorem Cc.reg_setReg_same (c : Cc) {r : Nat} (hr : r ≠ 0) (v : DWord) : (c.setReg r v).reg r = v := by
  simp [Cc.reg, Cc.setReg, hr]

@[simp] theorem length_fixHead (up : Nat) (es : List QEntry) : (fixHead up es).length = es.length := by
  cases es <;> rfl

@[simp] theorem CoreSt.queue_push (k : CoreSt) (q up : Nat) (e : QEntry) (p : Nat) :
    (k.push q up e).queue p = if p = q then fixHead up (k.queue q ++ [{ e with stamp := k.issued }]) else k.queue p :=
  CoreSt.queue_setQueue ..

/-! ## What changes one core alone -/

theorem onlyCore_setCore (s : State) (c : Nat) (k : CoreSt) : OnlyCore s (s.setCore c k) c :=
  ⟨rfl, fun n hn => by rw [State.core_setCore, if_neg hn]⟩

theorem onlyCore_modCore (s : State) (c : Nat) (f : CoreSt → CoreSt) : OnlyCore s (s.modCore c f) c :=
  onlyCore_setCore s c _

theorem onlyCore_trans {s t u : State} {c : Nat} (hst : OnlyCore s t c) (htu : OnlyCore t u c) : OnlyCore s u c := by
  obtain ⟨hst, hst'⟩ := hst
  obtain ⟨htu, htu'⟩ := htu
  refine ⟨?_, fun n hn => (htu' n hn).trans (hst' n hn)⟩
  calc { u with cores := s.cores } = { ({ u with cores := t.cores } : State) with cores := s.cores } := rfl
    _ = { t with cores := s.cores } := by rw [htu]
    _ = s := hst

/-! ## The store to a window (R44, R45, R323) -/

/-- Without a RUNNING job the store halts the control core. -/
theorem State.enqueue_without_job {s : State} {c : Nat} (hjob : s.jobsIn (partOfCore c) .running = []) (q : Nat) (ws : List Word) :
    s.enqueue c q ws = s.modCore c (fun k => { k with cc := { k.cc with halted := true } }) := by
  simp [State.enqueue, hjob]

section
variable {s : State} {c q : Nat} (hjob : s.jobsIn (partOfCore c) .running ≠ []) (ws : List Word)
include hjob

/-- What the store to a full queue leaves: the core stalls with its words in the window. -/
theorem State.enqueue_full (hfull : 64 ≤ ((s.core c).queue q).length) :
    ((s.enqueue c q ws).core c).cc.stall = .queue q ∧ ((s.enqueue c q ws).core c).queues = (s.core c).queues ∧
      OnlyCore s (s.enqueue c q ws) c := by
  rw [State.enqueue, if_neg (by simpa using hjob), if_pos hfull]
  refine ⟨?_, ?_, onlyCore_modCore ..⟩ <;> rw [State.core_modCore, if_pos rfl]

/-- What the store to a queue with a free entry leaves: the command at the end of the queue, numbered in issue order. -/
theorem State.enqueue_room (hroom : ((s.core c).queue q).length < 64) :
    ((s.enqueue c q ws).core c).queue q = fixHead s.time.up
        ((s.core c).queue q ++ [{ words := ws, caps := captures (s.core c).cc q ws, stamp := (s.core c).issued }]) ∧
      ((s.enqueue c q ws).core c).issued = (s.core c).issued + 1 ∧
      (∀ p, p ≠ q → ((s.enqueue c q ws).core c).queue p = (s.core c).queue p) ∧
      ((s.enqueue c q ws).core c).running = (s.core c).running ∧
      ((s.enqueue c q ws).core c).cc.stall = (s.core c).cc.stall ∧ OnlyCore s (s.enqueue c q ws) c := by
  rw [State.enqueue, if_neg (by simpa using hjob), if_neg (by omega)]
  refine ⟨?_, ?_, fun p hp => ?_, ?_, ?_, onlyCore_modCore ..⟩ <;> rw [State.core_modCore, if_pos rfl]
  · exact (CoreSt.queue_push ..).trans (if_pos rfl)
  · rfl
  · exact (CoreSt.queue_push ..).trans (if_neg hp)
  · rfl
  · rfl

end

/-- The core with its control core stalled no more. -/
def CoreSt.unstalled (k : CoreSt) : CoreSt := { k with cc := { k.cc with stall := .none } }

@[simp] theorem CoreSt.stall_unstalled (k : CoreSt) : k.unstalled.cc.stall = .none := rfl
@[simp] theorem CoreSt.queue_unstalled (k : CoreSt) (q : Nat) : k.unstalled.queue q = k.queue q := rfl

/-- A core that stalled on a queue which has a free entry again stores its window there and goes on. -/
theorem exec_queueFullResume_room {s : State} {c : Fin 24} {q : Nat} (hstall : (s.core c).cc.stall = .queue q)
    (hroom : ((s.core c).queue q).length < 64) :
    exec (.queueFullResume c) s = .next ((s.setCore c (s.core c).unstalled).enqueue c q ((s.core c).cc.windowWords q)) := by
  change execQueueFullResume c s = _
  simp only [execQueueFullResume, hstall, if_pos hroom, CoreSt.unstalled]

/-! ## The FIFO head (R198, R199) -/

/-- A read of an empty FIFO stalls. -/
theorem CoreSt.popSummary_empty {k : CoreSt} (hfifo : k.ve.fifo = []) (up rd w : Nat) :
    k.popSummary up rd w = { k with cc := { k.cc with stall := .summary rd w up } } := by
  simp only [CoreSt.popSummary, Ve.readHead, hfifo]

section
variable {k : CoreSt} {r : List Word} {rest : List (List Word)} (hfifo : k.ve.fifo = r :: rest) (up rd w : Nat)
include hfifo

/-- A read of the head gives its 64-bit word `w` and stalls no more; the last word pops the record. -/
theorem CoreSt.popSummary_record :
    (k.popSummary up rd w).cc.stall = .none ∧ (k.popSummary up rd w).ve.fifo = (if w = 7 then rest else r :: rest) ∧
      (rd ≠ 0 → (k.popSummary up rd w).cc.reg rd = BitVec.ofNat 64 (join64 (r.getD (2 * w) 0) (r.getD (2 * w + 1) 0))) := by
  simp only [CoreSt.popSummary, Ve.readHead, hfifo]
  refine ⟨trivial, ?_, fun hrd => Cc.reg_setReg_same _ hrd _⟩
  split
  · rfl
  · exact hfifo

end

theorem exec_summaryStallResume_record {s : State} {c : Fin 24} {rd w up : Nat} (hstall : (s.core c).cc.stall = .summary rd w up)
    (hfifo : (s.core c).ve.fifo ≠ []) :
    exec (.summaryStallResume c) s = .next (s.setCore c ((s.core c).popSummary up rd w)) := by
  change execSummaryStallResume c s = _
  simp only [execSummaryStallResume, hstall, if_neg hfifo]

/-- The stall passes the deadline: the core halts and the jobs of its partition are killed. -/
theorem exec_veSumTimeout_due {s : State} {c : Fin 24} {rd w at_ : Nat} (hstall : (s.core c).cc.stall = .summary rd w at_)
    (hfifo : (s.core c).ve.fifo = []) (hdue : at_ + (s.core c).deadlineUs.toNat * 1000 ≤ s.time.up) :
    exec (.veSumTimeout c) s = .next ((s.setCore c { s.core c with cc :=
      { (s.core c).cc with halted := true, trapped := true, stall := .none } }).killPartition (partOfCore c) Cause.veSumTimeout 0
        { core := some c.val }) := by
  change execVeSumTimeout c s = _
  simp only [execVeSumTimeout, hstall, if_pos (And.intro hdue hfifo)]

/-! ## The scan gate (R594) -/

theorem State.core_integ (s : State) (i : Integ) (n : Nat) : ({ s with integ := i } : State).core n = s.core n := rfl
theorem State.core_modAct (s : State) (id : Nat) (f : Activity → Activity) (n : Nat) : (s.modAct id f).core n = s.core n := rfl

/-- With no segment placed on the core the load answers 0. -/
theorem State.scanGate_none {s : State} {c : Nat} (hseg : s.segmentPlaced c = false) (rd : Nat) :
    s.scanGate c rd = s.modCore c (fun k => { k with cc := k.cc.setReg rd 0 }) := by
  rw [State.scanGate, hseg, if_neg (by simp)]

/-- A segment placed on the core holds it. -/
theorem State.scanGate_segment {s : State} {c : Nat} (hseg : s.segmentPlaced c = true) (rd : Nat) :
    ((s.scanGate c rd).core c).cc.stall = .scan rd ∧ (s.scanGate c rd).integ.scanCore = some c ∧ (s.scanGate c rd).jobs = s.jobs ∧
      (s.scanGate c rd).hbm = s.hbm ∧ ∀ n, n ≠ c → (s.scanGate c rd).core n = s.core n := by
  rw [State.scanGate, if_pos hseg]
  refine ⟨?_, rfl, rfl, rfl, fun n hn => ?_⟩ <;> rw [State.core_integ, State.core_modCore]
  · rw [if_pos rfl]
  · rw [if_neg hn, State.core_modAct]

end Sys2Proof.Machine

namespace Sys2Proof

open Sys2Proof.Machine

/-- Settles O53. A store to a window has three cases (no RUNNING job, a full queue, a free entry), a read of the FIFO head two (empty,
or a record), the scan gate two; the deadline's kill is `State.job_killPartition`, which keeps the control core that has just
halted. -/
theorem controlCoreWindows : Obligations.ControlCoreWindows := by
  refine ⟨fun s c q ws hjob => ⟨fun hroom => ?_, fun hfull => ?_, fun hstall hroom => ?_⟩, fun s c q ws hjob => ?_,
    fun s c rd r rest hfifo hrd => ?_, fun s c rd hfifo => ?_, fun s c rd w at_ r rest hstall hfifo => ?_,
    fun s c rd w at_ hstall hfifo hdue => ?_, fun s c rd hseg => ?_, fun s c rd hseg => ?_⟩
  · -- a queue with a free entry
    obtain ⟨hqueue, hissued, hother, hrunning, -, honly⟩ := State.enqueue_room hjob ws hroom
    exact ⟨_, rfl, hqueue, hissued, hother, hrunning, honly⟩
  · -- a full queue
    exact ⟨_, rfl, State.enqueue_full hjob ws hfull⟩
  · -- the store that waited for an entry
    refine ⟨_, exec_queueFullResume_room hstall hroom, ?_⟩
    have hcore : (s.setCore c (s.core c).unstalled).core c = (s.core c).unstalled := by rw [State.core_setCore, if_pos rfl]
    obtain ⟨hqueue, -, -, -, hstall', honly⟩ := State.enqueue_room (s := s.setCore c (s.core c).unstalled) hjob
      ((s.core c).cc.windowWords q) (by rwa [hcore, CoreSt.queue_unstalled])
    refine ⟨?_, ?_, onlyCore_trans (onlyCore_setCore ..) honly⟩
    · rw [hstall', hcore, CoreSt.stall_unstalled]
    · rw [hqueue, hcore, length_fixHead, List.length_append, CoreSt.queue_unstalled, List.length_singleton]
  · -- no RUNNING job
    exact congrArg _ (State.enqueue_without_job hjob q ws)
  · -- the last word of a record
    obtain ⟨-, hpop, hreg⟩ := CoreSt.popSummary_record hfifo s.time.up rd 7
    refine ⟨_, rfl, ?_, ?_, onlyCore_modCore ..⟩ <;> rw [State.core_modCore, if_pos rfl]
    · exact hpop
    · exact hreg hrd
  · -- an empty FIFO
    refine ⟨_, rfl, ?_, onlyCore_modCore ..⟩
    rw [State.core_modCore, if_pos rfl, CoreSt.popSummary_empty hfifo]
  · -- the read that waited for a record
    obtain ⟨hstall', hpop, hreg⟩ := CoreSt.popSummary_record hfifo at_ rd w
    refine ⟨_, exec_summaryStallResume_record hstall (by simp [hfifo]), ?_, ?_, ?_, onlyCore_setCore ..⟩ <;>
      rw [State.core_setCore, if_pos rfl]
    · exact hstall'
    · exact hpop
    · exact hreg
  · -- the deadline passes first
    refine ⟨_, exec_veSumTimeout_due hstall hfifo hdue, ?_, fun j hj => State.job_killPartition _ _ _ _ _ hj⟩
    rw [State.cc_killPartition, State.core_setCore, if_pos rfl]
  · -- no segment
    refine ⟨_, rfl, ?_⟩
    rw [State.scanGate_none hseg]
    exact ⟨by rw [State.core_modCore, if_pos rfl], onlyCore_modCore ..⟩
  · -- a segment
    exact ⟨_, rfl, State.scanGate_segment hseg rd⟩

end Sys2Proof
end

section
/-! The lock commands at the head of a queue (R288 to R301): what the pop of the head leaves, an equation for each command whose
checks pass, and O49 from them. -/

namespace Sys2Proof.Machine

/-! ## The pop of a queue's head -/

/-- The pop changes its queue and, for MQ, the time since which the matrix engine idles. -/
theorem CoreSt.pop_eq (k : CoreSt) (q up : Nat) :
    ∃ m, k.pop q up = { k.setQueue q (fixHead up (k.queue q).tail) with me := m } := by
  unfold CoreSt.pop CoreSt.noteIdle
  split
  · exact ⟨_, rfl⟩
  · exact ⟨_, rfl⟩

@[simp] theorem CoreSt.queue_pop (k : CoreSt) (q up p : Nat) :
    (k.pop q up).queue p = if p = q then fixHead up (k.queue q).tail else k.queue p := by
  obtain ⟨m, hpop⟩ := k.pop_eq q up
  rw [hpop]
  exact CoreSt.queue_setQueue ..

@[simp] theorem CoreSt.pop_frame (k : CoreSt) (q up : Nat) :
    (k.pop q up).locks = k.locks ∧ (k.pop q up).running = k.running ∧ (k.pop q up).spad = k.spad ∧
      (k.pop q up).overflows = k.overflows := by
  obtain ⟨m, hpop⟩ := k.pop_eq q up
  rw [hpop]
  exact ⟨rfl, rfl, rfl, rfl⟩

@[simp] theorem CoreSt.lock_pop (k : CoreSt) (q up i : Nat) : (k.pop q up).lock i = k.lock i := by
  simp [CoreSt.lock]

/-! ## A lock command at the head -/

/-- A lock command of a RUNNING job that no switch stalls runs. -/
theorem State.lockHead_runs {s : State} {c q : Nat} {e : QEntry} {sel : Nat → Bool} (hhead : ((s.core c).queue q).head? = some e)
    (hsel : sel e.op = true) (hjob : s.jobRuns c e.job = true) (hstall : s.stalledBy c e.job = false) (f : QEntry → State) :
    s.lockHead c q sel f = f e := by
  obtain ⟨es, hqueue⟩ := List.head?_eq_some_iff.1 hhead
  simp [State.lockHead, hqueue, hsel, hjob, hstall]

/-! ## Waits (R288 to R291) -/

/-- The rows of the two waits do the same with the wait at the head. -/
theorem exec_wait {s : State} {c : Fin 24} {q : Fin 4} {e : QEntry} {i : Instr} {op : Nat}
    (hrow : (i, op) ∈ [(Instr.waitf c q, 0xE0), (Instr.waitd c q, 0xE1), (Instr.waitComplete c q, 0xE0), (Instr.waitComplete c q, 0xE1)])
    (hhead : ((s.core c).queue q).head? = some e) (hop : e.op = op) (hjob : s.jobRuns c e.job = true)
    (hstall : s.stalledBy c e.job = false) : exec i s = .next (s.waitHead c q e) := by
  simp only [List.mem_cons, List.not_mem_nil, or_false, Prod.mk.injEq] at hrow
  obtain ⟨rfl, rfl⟩ | ⟨rfl, rfl⟩ | ⟨rfl, rfl⟩ | ⟨rfl, rfl⟩ := hrow <;>
    exact congrArg _ (State.lockHead_runs hhead (by simp [hop]) hjob hstall _)

section
variable {s : State} {c q : Nat} {e : QEntry} (hok : waitOk e.words = true) (hvalid : ((s.core c).lock (wLock e.words)).valid = true)
  (howner : ((s.core c).lock (wLock e.words)).owner = e.job) (hcount : wCount e.words ≤ ((s.core c).lock (wLock e.words)).depth)
include hok hvalid howner hcount

theorem State.waitHead_holds (hholds : waitHolds e.op ((s.core c).lock (wLock e.words)) (wCount e.words) = true) :
    s.waitHead c q e =
      s.modCore c (fun k => { (k.pop q s.time.up) with lockWait := satAdd k.lockWait (headCycles s.time.up e) }) := by
  simp [State.waitHead, hok, hvalid, howner, Nat.not_lt.2 hcount, hholds]

theorem State.waitHead_stays (hholds : waitHolds e.op ((s.core c).lock (wLock e.words)) (wCount e.words) = false) :
    s.waitHead c q e = s := by
  simp [State.waitHead, hok, hvalid, howner, Nat.not_lt.2 hcount, hholds]

end

theorem waitHolds_waitf (l : Lock) (n : Nat) : waitHolds 0xE0 l n = decide (l.occ + n ≤ l.depth) := rfl
theorem waitHolds_waitd (l : Lock) (n : Nat) : waitHolds 0xE1 l n = decide (n ≤ l.occ) := rfl

/-! ## Signals (R281, R300) -/

/-- Signals that keep their lock's range, with none of the cycle held for that lock, are added to its counters. -/
theorem CoreSt.applySignals_inRange {k : CoreSt} {i fill drain : Nat} (hnone : ∀ o ∈ k.overflows, o.lock ≠ i)
    (hrange : ((k.lock i).add fill drain).inRange = true) (job : Nat) :
    k.applySignals i fill drain job = k.setLock i ((k.lock i).add fill drain) := by
  have hmine : k.overflows.filter (fun o => o.lock == i) = [] := by simpa using hnone
  have hrest : k.overflows.filter (fun o => o.lock != i) = k.overflows := by simpa using hnone
  simp only [CoreSt.applySignals, hmine, hrest, List.map_nil, List.sum_nil, Nat.add_zero, if_pos hrange]
  rfl

/-- A lock with one signal added. -/
def Lock.signalled (l : Lock) (g : Signal) : Lock :=
  l.add (if g.kind = 1 then g.amount else 0) (if g.kind = 2 then g.amount else 0)

theorem amountFor_one (g : Signal) (kind : Nat) : amountFor [g] g.lock kind = if g.kind = kind then g.amount else 0 := by
  by_cases hkind : g.kind = kind <;> simp [amountFor, hkind]

/-- One signal on a valid lock of the issuing core, whose range it keeps. -/
theorem State.localSignals_inRange {s : State} {c : Nat} {g : Signal} (hvalid : ((s.core c).lock g.lock).valid = true)
    (hnone : ∀ o ∈ (s.core c).overflows, o.lock ≠ g.lock) (hrange : (((s.core c).lock g.lock).signalled g).inRange = true)
    (job : Nat) :
    s.localSignals c job [g] = s.setCore c ((s.core c).setLock g.lock (((s.core c).lock g.lock).signalled g)) := by
  have hlocks : ([g].map (·.lock)).eraseDups = [g.lock] := rfl
  simp only [State.localSignals, State.each, hlocks, List.foldl_cons, List.foldl_nil, hvalid, Bool.not_true, Bool.false_eq_true,
    if_false, State.modCore, amountFor_one]
  exact congrArg _ (CoreSt.applySignals_inRange hnone hrange job)

theorem CoreSt.ownsSignal_own {k : CoreSt} {c job : Nat} {g : Signal} (hvalid : (k.lock g.lock).valid = true)
    (howner : (k.lock g.lock).owner = job) : k.ownsSignal c job (some g) = true := by
  simp [CoreSt.ownsSignal, hvalid, howner]

theorem CoreSt.ownsSignal_away {k : CoreSt} {c job : Nat} {g : Signal} (haway : g.core ≠ c) : k.ownsSignal c job (some g) = true := by
  simp [CoreSt.ownsSignal, haway]

/-- A LOCK_SIGNAL without earlier commands leaves the queue and its signal goes out: over the links, to its own core's lock or over
the NoC. -/
theorem exec_lockSignal {s : State} {c : Fin 24} {q : Fin 4} {e : QEntry} {g : Signal}
    (hhead : ((s.core c).queue q).head? = some e) (hop : e.op = 0xE2) (hjob : s.jobRuns c e.job = true)
    (hstall : s.stalledBy c e.job = false) (hok : signalOk e.words = true) (hearlier : ∀ r ∈ (s.core c).running, r.queue ≠ q.val)
    (hsignal : (dSignal c e.words).map (fun x => { x with amount := bits (dw e.words 1) 16 7 }) = some g)
    (howns : sXchip e.words = true ∨ (s.core c).ownsSignal c e.job (some g) = true) :
    exec (.lockSignal c q) s = .next (
      if sXchip e.words then (s.modCore c (fun k => k.pop q s.time.up)).sendTo (lDestChip e.words)
        [.signal (bits (dw e.words 1) 13 2) (lDestChip e.words) g]
      else if g.core = c then (s.modCore c (fun k => k.pop q s.time.up)).localSignals c e.job [g]
      else (s.modCore c (fun k => k.pop q s.time.up)).nocSignal c g) := by
  have hfree : (s.core c).running.any (fun r => r.queue == q.val) = false := by simpa using hearlier
  have howned : ¬((!sXchip e.words) = true ∧ (!(s.core c).ownsSignal c e.job (some g)) = true) := by
    rcases howns with h | h <;> simp [h]
  refine congrArg _ ((State.lockHead_runs hhead (by simp [hop]) hjob hstall _).trans ?_)
  simp only [State.lockSignalHead, hsignal, hok, hfree, if_neg howned, Bool.not_true, Bool.false_eq_true, if_false]

/-! ## LOCK_DEPTH (R301) -/

/-- The started LOCK_DEPTH, whose commit sets DEPTH. -/
def depthRunning (q : Nat) (e : QEntry) : Running :=
  { queue := q, job := e.job, entry := e, effects := [.depth (wLock e.words) (bits (dw e.words 1) 0 7)], nonpre := false, claims := 0,
    dest := [], cycles := 1 }

theorem exec_lockDepth {s : State} {c : Fin 24} {q : Fin 4} {e : QEntry} (hhead : ((s.core c).queue q).head? = some e)
    (hop : e.op = 0xE3) (hjob : s.jobRuns c e.job = true) (hstall : s.stalledBy c e.job = false)
    (hword0 : bits (dw e.words 0) 15 17 = 0) (hword1 : bits (dw e.words 1) 7 17 = 0) (hzero : zeroWords e.words 2 14 = true)
    (hlow : bits (dw e.words 1) 0 7 ≠ 0) (hhigh : bits (dw e.words 1) 0 7 ≤ 64)
    (hvalid : ((s.core c).lock (wLock e.words)).valid = true) (howner : ((s.core c).lock (wLock e.words)).owner = e.job) :
    exec (.lockDepth c q) s =
      .next (s.modCore c (fun k => { (k.pop q s.time.up) with running := k.running ++ [depthRunning q e] })) := by
  refine congrArg _ ((State.lockHead_runs hhead (by simp [hop]) hjob hstall _).trans ?_)
  simp [State.lockDepthHead, hword0, hword1, hzero, hlow, hhigh, hvalid, howner, depthRunning]

end Sys2Proof.Machine

namespace Sys2Proof

open Sys2Proof.Machine

/-- Settles O49. A wait goes or stays by `waitHolds`; a LOCK_SIGNAL pops its queue's head and then changes a lock of the same core,
the signals on their way to another core, or the links; a LOCK_DEPTH starts. What the pop leaves is `CoreSt.pop_frame`. -/
theorem lockCommandsComplete : Obligations.LockCommandsComplete := by
  refine ⟨fun s c q e i op hrow hhead hop hjob hstall hok hvalid howner hcount => ⟨fun hcond => ?_, fun hcond => ?_⟩,
    fun s c q e g hhead hop hjob hstall hok hearlier hsignal => ⟨fun hchip hown hvalid howner hnone hrange => ?_,
      fun hchip haway => ?_, fun hchip => ?_⟩,
    fun s c q e hhead hop hjob hstall hword0 hword1 hzero hlow hhigh hvalid howner => ?_⟩
  · -- the condition holds
    have hholds : waitHolds e.op ((s.core c).lock (wLock e.words)) (wCount e.words) = true := by
      obtain ⟨rfl, hroom⟩ | ⟨rfl, hoccupied⟩ := hcond
      · rw [hop, waitHolds_waitf]; exact decide_eq_true hroom
      · rw [hop, waitHolds_waitd]; exact decide_eq_true hoccupied
    obtain ⟨hlocks, hrunning, hspad, -⟩ := (s.core c).pop_frame q s.time.up
    refine ⟨_, (exec_wait hrow hhead hop hjob hstall).trans
      (congrArg _ (State.waitHead_holds hok hvalid howner hcount hholds)), ?_, ?_, ?_, ?_, onlyCore_modCore ..⟩ <;>
      rw [State.core_modCore, if_pos rfl]
    · exact (CoreSt.queue_pop ..).trans (if_pos rfl)
    · exact hlocks
    · exact hrunning
    · exact hspad
  · -- it does not
    have hholds : waitHolds e.op ((s.core c).lock (wLock e.words)) (wCount e.words) = false := by
      obtain ⟨rfl, hfull⟩ | ⟨rfl, hempty⟩ := hcond
      · rw [hop, waitHolds_waitf]; exact decide_eq_false (by omega)
      · rw [hop, waitHolds_waitd]; exact decide_eq_false (by omega)
    exact (exec_wait hrow hhead hop hjob hstall).trans (congrArg _ (State.waitHead_stays hok hvalid howner hcount hholds))
  · -- a signal to a lock of its own core
    have hexec := exec_lockSignal hhead hop hjob hstall hok hearlier hsignal (.inr (CoreSt.ownsSignal_own hvalid howner))
    replace hrange : (((s.core c).lock g.lock).signalled g).inRange = true := hrange
    obtain ⟨-, hrunning, hspad, -⟩ := (s.core c).pop_frame q s.time.up
    rw [hchip, if_neg Bool.false_ne_true, if_pos hown, State.localSignals_inRange (by simpa using hvalid) (by simpa using hnone)
      (by rwa [State.core_modCore, if_pos rfl, CoreSt.lock_pop])] at hexec
    refine ⟨_, hexec, ?_, ?_, fun n hn => ?_, ?_, ?_, onlyCore_trans (onlyCore_modCore ..) (onlyCore_setCore ..)⟩ <;>
      rw [State.core_setCore, if_pos rfl, State.core_modCore, if_pos rfl]
    · exact (CoreSt.queue_pop ..).trans (if_pos rfl)
    · rw [CoreSt.lock_setLock, if_pos rfl, CoreSt.lock_pop]; rfl
    · rw [CoreSt.lock_setLock, if_neg hn, CoreSt.lock_pop]
    · exact hrunning
    · exact hspad
  · -- a signal to another core
    have hexec := exec_lockSignal hhead hop hjob hstall hok hearlier hsignal (.inr (CoreSt.ownsSignal_away haway))
    rw [hchip, if_neg Bool.false_ne_true, if_neg haway] at hexec
    refine ⟨_, hexec, ?_, ?_, ?_, rfl⟩ <;> rw [State.nocSignal, State.core_modCore]
    · rw [if_neg haway.symm]; simp
    · rw [if_neg haway.symm]; simp
    · simp [haway]
  · -- a signal to another chip
    rw [exec_lockSignal hhead hop hjob hstall hok hearlier hsignal (.inl hchip), if_pos hchip]
  · -- LOCK_DEPTH
    obtain ⟨hlocks, -⟩ := (s.core c).pop_frame q s.time.up
    refine ⟨_, exec_lockDepth hhead hop hjob hstall hword0 hword1 hzero hlow hhigh hvalid howner, depthRunning q e,
      ⟨rfl, rfl, rfl, ?_, ?_, fun p hp => ?_⟩, rfl, ?_, onlyCore_modCore ..⟩ <;> rw [State.core_modCore, if_pos rfl]
    · exact (CoreSt.queue_pop ..).trans (if_pos rfl)
    · exact (CoreSt.queue_pop ..).trans (if_neg hp)
    · exact hlocks

end Sys2Proof
end

section
/-! JOB_START before the weirs are set (R738): what a command row answers when its checks refuse, the check of the time lock that comes
before that of the weirs, and O26 from them. -/

namespace Sys2Proof.Machine

/-- A command whose checks refuse it is answered with that refusal, with CHECK_ONLY or without (R536). -/
theorem State.command_refused {s s1 : State} {via : Via} {op : Nat} {sel : Cmd → Bool} {c : Cmd} {f : State → Cmd → Verdict}
    {status detail : Nat} (htaken : s.taken via op sel = some (s1, c)) (hno : f s1 c = .no status detail) :
    s.command via op sel f = s1.reply c status detail [] := by
  rw [State.command, htaken]
  dsimp only
  rw [hno]

@[simp] theorem Verdict.unless_true (status detail : Nat) (v : Verdict) : Verdict.unless true status detail v = v := rfl
@[simp] theorem Verdict.unless_false (status detail : Nat) (v : Verdict) :
    Verdict.unless false status detail v = .no status detail := rfl

/-- A job that spans chips starts only with its time locked (R402); any other job passes this check. -/
theorem timeCheck_of_imp {spans locked : Bool} (hlocked : spans = true → locked = true) (state : JobState) :
    (!(spans && state != .free) || locked) = true := by
  cases spans
  · rfl
  · rw [hlocked rfl, Bool.or_true]

end Sys2Proof.Machine

namespace Sys2Proof

open Sys2Proof.Machine

/-- Settles O26. A LOADED job comes to the check of the weirs right after that of its time lock, a PARKED one also past the check that no
job of its partition is RUNNING; the weirs that are not all set then refuse it. -/
theorem jobStartNeedsAllWeirs : Obligations.JobStartNeedsAllWeirs := by
  rintro s s1 via c ⟨htaken, -⟩ hlocked hstate hweirs
  refine congrArg _ (State.command_refused htaken ?_)
  have hunset : ((s1.part (partOfJob c.job)).weirsSet == 0xF) = false := beq_false_of_ne hweirs
  obtain hloaded | ⟨hparked, hnone⟩ := hstate
  · -- a LOADED job
    simp only [timeCheck_of_imp hlocked, hloaded, hunset, Verdict.unless_true, Verdict.unless_false]
  · -- a PARKED job
    simp only [timeCheck_of_imp hlocked, hparked, hnone, hunset, List.isEmpty_nil, Verdict.unless_true, Verdict.unless_false]

end Sys2Proof
end

section
/-! The ring doorbells that nothing follows (R732): when SQ_TAIL and CQ_HEAD are counted as strays, what serving a function's rings leaves
of its submission ring while no entry is unread, and O16 from them. -/

namespace Sys2Proof.Machine

/-! ## Strays -/

/-- A submission doorbell with its reserved bits zero is a stray where the ring is disabled or the index is no entry's (R732). -/
theorem State.sqDoorbell_stray {s : State} {fn : Nat} {w : Word} (hreserved : bits w.toNat 12 20 = 0)
    (hbad : (s.fn fn).sqEn = false ∨ 2 ^ (s.fn fn).sqLog2.toNat ≤ w.toNat) (entries : List SqEntry) :
    s.sqDoorbell fn w entries = s.stray fn := by
  rw [State.sqDoorbell, if_neg (not_not.2 hreserved), if_pos (hbad.imp_left (fun hoff => by rw [hoff]; rfl))]

/-- A completion doorbell with its reserved bits zero is a stray where the ring is disabled or the index is no entry's (R732). -/
theorem State.cqDoorbell_stray {s : State} {fn : Nat} {w : Word} (hreserved : bits w.toNat 12 20 = 0)
    (hbad : (s.fn fn).cqEn = false ∨ 2 ^ (s.fn fn).cqLog2.toNat ≤ w.toNat) : s.cqDoorbell fn w = s.stray fn := by
  rw [State.cqDoorbell, if_neg (not_not.2 hreserved), if_pos (hbad.imp_left (fun hoff => by rw [hoff]; rfl))]

/-! ## Serving rings with nothing unread -/

/-- Writing completion entries moves the completion ring only. -/
theorem FnBlock.write_frame (f : FnBlock) (n : Nat) :
    { (f.write n).1 with waiting := f.waiting, cqNext := f.cqNext, cqPhase := f.cqPhase } = f := by
  induction n generalizing f with
  | zero => rfl
  | succ n ih =>
    rw [FnBlock.write]
    split
    · rfl
    next i rest _ =>
      split
      · rfl
      · exact congrArg (fun b : FnBlock => { b with waiting := f.waiting, cqNext := f.cqNext, cqPhase := f.cqPhase }) (ih _)

@[simp] theorem FnBlock.sqHead_write (f : FnBlock) (n : Nat) : (f.write n).1.sqHead = f.sqHead :=
  (congrArg FnBlock.sqHead (f.write_frame n) :)
@[simp] theorem FnBlock.unread_write (f : FnBlock) (n : Nat) : (f.write n).1.unread = f.unread :=
  (congrArg FnBlock.unread (f.write_frame n) :)

/-- A vector, fired or pending, changes only what is pending and what has been sent. -/
theorem State.msix_frame (s : State) (fn vector : Nat) :
    { s.msix fn vector with msixPend := s.msixPend, out := s.out } = s := by
  unfold State.msix
  split
  · rfl
  · split <;> rfl

@[simp] theorem State.fn_msix (s : State) (fn vector n : Nat) : (s.msix fn vector).fn n = s.fn n :=
  (congrArg (State.fn · n) (s.msix_frame fn vector) :)
@[simp] theorem State.accepted_msix (s : State) (fn vector : Nat) : (s.msix fn vector).accepted = s.accepted :=
  (congrArg State.accepted (s.msix_frame fn vector) :)
@[simp] theorem State.rst_msix (s : State) (fn vector : Nat) : (s.msix fn vector).rst = s.rst :=
  (congrArg State.rst (s.msix_frame fn vector) :)

/-- Writing a function's waiting replies and events leaves its submission ring, the accepted commands and the resets (R512). -/
theorem State.drainCq_frame (s : State) (fn : Nat) :
    ((s.drainCq fn).fn fn).sqHead = (s.fn fn).sqHead ∧ ((s.drainCq fn).fn fn).unread = (s.fn fn).unread ∧
    (s.drainCq fn).accepted = s.accepted ∧ (s.drainCq fn).rst = s.rst := by
  unfold State.drainCq
  split
  · -- the rings are open
    dsimp only
    split
    · exact ⟨rfl, rfl, rfl, rfl⟩
    · have hemits (t : State) (os : List Out) : (t.emits os).fn fn = t.fn fn := rfl
      exact ⟨by simp [hemits], by simp [hemits], State.accepted_msix .., State.rst_msix ..⟩
  · exact ⟨rfl, rfl, rfl, rfl⟩

/-- No reset begins after a reply that none waits for. -/
theorem State.afterReplies_none {s : State} (hnone : s.rst.afterReply = none) : s.afterReplies = s := by
  rw [State.afterReplies, hnone]

/-- With no entry unread and no reset behind a reply, serving the rings only writes completions. -/
theorem State.serveRings_unread_nil {s : State} {fn : Nat} (hunread : (s.fn fn).unread = []) (hnone : s.rst.afterReply = none) :
    s.serveRings fn = s.drainCq fn := by
  obtain ⟨-, hdrained, -, hrst⟩ := s.drainCq_frame fn
  rw [State.serveRings, hdrained, hunread, List.length_nil, State.readRing, State.afterReplies_none (by rw [hrst, hnone])]

/-- A submission doorbell that repeats the tail announces no entry: the ring then stands at the tail written. -/
theorem State.sqDoorbell_same_tail {s : State} {fn : Nat} {w : Word} (hreserved : bits w.toNat 12 20 = 0)
    (hen : (s.fn fn).sqEn = true) (hindex : w.toNat < 2 ^ (s.fn fn).sqLog2.toNat) (htail : (s.fn fn).sqTail = w.toNat)
    (entries : List SqEntry) : s.sqDoorbell fn w entries = (s.setFn fn (s.fn fn)).serveRings fn := by
  have hgood : ¬((!(s.fn fn).sqEn) = true ∨ 2 ^ (s.fn fn).sqLog2.toNat ≤ w.toNat) := by simp [hen, hindex]
  have hnew : (w.toNat + 2 ^ (s.fn fn).sqLog2.toNat - (s.fn fn).sqTail) % 2 ^ (s.fn fn).sqLog2.toNat = 0 := by
    rw [htail, Nat.add_sub_cancel_left, Nat.mod_self]
  rw [State.sqDoorbell, if_neg (not_not.2 hreserved), if_neg hgood]
  dsimp only
  rw [hnew, ← htail, List.range_zero, List.map_nil, List.append_nil]

/-! ## The doorbells as commands -/

/-- A write of an enumerated function's SQ_TAIL reaches the ring while the BAR works. -/
theorem exec_sqTailWrite {s : State} {f : Fin 13} (hopen : s.barOpen = true) (henum : s.enumerated f = true) (v : Word)
    (es : List SqEntry) : exec (.sqTailWrite f v es) s = .next (s.sqDoorbell f v es) := by
  show execSqTailWrite f v es s = _
  rw [execSqTailWrite, hopen, henum]
  rfl

/-- A write of an enumerated function's CQ_HEAD reaches the ring while the BAR works. -/
theorem exec_cqHeadWrite {s : State} {f : Fin 13} (hopen : s.barOpen = true) (henum : s.enumerated f = true) (v : Word) :
    exec (.cqHeadWrite f v) s = .next (s.cqDoorbell f v) := by
  show execCqHeadWrite f v s = _
  rw [execCqHeadWrite, hopen, henum]
  rfl

end Sys2Proof.Machine

namespace Sys2Proof

open Sys2Proof.Machine

/-- Settles O16. A tail that repeats SQ_HEAD announces no entry, so the rings are served with nothing unread, which writes completions
only. -/
theorem badDoorbellsAreCounted : Obligations.BadDoorbellsAreCounted := by
  intro s f v es hopen henum hreserved
  rw [exec_sqTailWrite hopen henum, exec_cqHeadWrite hopen henum]
  refine ⟨fun hbad => ?_, fun hbad => ?_, fun hen hindex hhead htail hunread hnone => ?_⟩
  · -- a bad SQ_TAIL
    rw [State.sqDoorbell_stray hreserved hbad, State.stray]
  · -- a bad CQ_HEAD
    rw [State.cqDoorbell_stray hreserved hbad, State.stray]
  · -- an empty ring
    have hserved : s.sqDoorbell f v es = (s.setFn f (s.fn f)).drainCq f := by
      rw [State.sqDoorbell_same_tail hreserved hen hindex (htail.trans hhead.symm)]
      exact State.serveRings_unread_nil (by simpa using hunread) hnone
    obtain ⟨hsqHead, hrest, haccepted, -⟩ := (s.setFn f (s.fn f)).drainCq_frame f
    exact ⟨_, (exec_sqTailWrite hopen henum v es).trans (congrArg _ hserved), haccepted, by simpa using hsqHead,
      by simpa [hunread] using hrest⟩

end Sys2Proof
end
